-- ==== Sys2Proof/Word.lean ====
section
/-! DEFINITION. The two fixed widths of the block: bytes and 16-bit values (00_scope.md R8, R10, R11). -/

namespace Sys2Proof

/-- A byte, an unsigned integer 0..255 (R10). -/
abbrev Byte := BitVec 8

/-- An unsigned 16-bit value: the `CRC` register, a register id, a length field (R8, R72). -/
abbrev Word := BitVec 16

end Sys2Proof
end

