-- ==== Sys2Proof/Config.lean ====
section
/-! DEFINITION. The parameters of the block that no command reads back or changes (00_scope.md R9, 10_state.md R29),
and the two the spec leaves OPEN as constants with no body. -/

namespace Sys2Proof

/-- The symbol a unit code stands for (30_encoding.md R90). The block never outputs it (43_numeric_decode.md R197). -/
abbrev UnitSymbol := String

/-- The parameters a model takes as arguments (R9). -/
structure Config where
  /-- `RX_BODY_MAX`: the most bytes the receive buffer holds between the markers; `none` is `INF`. -/
  rxBodyMax : Option Nat
  /-- `UnitTable`: unit code to unit symbol, `none` for an unknown code. -/
  unitTable : Byte → Option UnitSymbol
  /-- `MULTI_REC_ID_BYTES`: bytes skipped before each record of a multi-register response. -/
  multiRecIdBytes : Nat

/-- `SEQ_MAX`, the longest byte-sequence operand (R9, 30_encoding.md R72). -/
def seqMax : Nat := 65535

/-- The most ids an `idseq` operand holds (30_encoding.md R72). -/
def idSeqMax : Nat := 255

/-- `RX_BODY_MAX` is OPEN (R9, D13): nothing can be proved of its value. Log 5. -/
opaque Config.openRxBodyMax : Option Nat

/-- The entries of `UnitTable` the spec does not give (R9, D24): nothing can be proved of them. Log 6. -/
opaque Config.openUnit : Byte → Option UnitSymbol

end Sys2Proof
end

