-- ==== Sys2Proof/Machine/Operands.lean ====
section
/-! DEFINITION. Byte order and the four operand kinds of the command port: how each is read from a serialised command
and how it is written into one (20_memory.md R52, 30_encoding.md R72, R73). -/

namespace Sys2Proof.Machine

/-- `be16(v)`: high byte first (00_scope.md R11, 20_memory.md R52). -/
def be16 (v : Word) : List Byte := [v.extractLsb' 8 8, v.extractLsb' 0 8]

/-- `u16be(a, b) = 256*a + b` (R11). -/
def u16be (a b : Byte) : Word := a ++ b

/-- Read a `b8` operand: 1 byte (R73). -/
def takeB8 : List Byte → Option (Byte × List Byte)
  | b :: rest => some (b, rest)
  | [] => none

/-- Read a `u16` operand: 2 bytes, big-endian (R73). -/
def takeU16 : List Byte → Option (Word × List Byte)
  | a :: b :: rest => some (u16be a b, rest)
  | _ => none

/-- Exactly the first `n` bytes, and what follows them; nothing when fewer are present (R77). -/
def takeExact : Nat → List Byte → Option (List Byte × List Byte)
  | 0, rest => some ([], rest)
  | _ + 1, [] => none
  | n + 1, b :: rest => (takeExact n rest).map fun p => (b :: p.1, p.2)

/-- Read a `seq` operand: a 2-byte big-endian length, then that many bytes (R73). -/
def takeSeq (bs : List Byte) : Option (List Byte × List Byte) :=
  (takeU16 bs).bind fun p => takeExact p.1.toNat p.2

/-- `n` ids, 2 bytes big-endian each (R73). -/
def takeIds : Nat → List Byte → Option (List Word × List Byte)
  | 0, rest => some ([], rest)
  | n + 1, bs => (takeU16 bs).bind fun p => (takeIds n p.2).map fun q => (p.1 :: q.1, q.2)

/-- Read an `idseq` operand: a 1-byte count, then that many ids (R73). -/
def takeIdSeq (bs : List Byte) : Option (List Word × List Byte) :=
  (takeB8 bs).bind fun p => takeIds p.1.toNat p.2

/-- Write a `seq` operand (R73). Its length must fit 16 bits (R72). -/
def putSeq (s : List Byte) : List Byte := be16 (BitVec.ofNat 16 s.length) ++ s

/-- Write an `idseq` operand (R73). Its count must fit 8 bits (R72). -/
def putIdSeq (ids : List Word) : List Byte := BitVec.ofNat 8 ids.length :: ids.flatMap be16

end Sys2Proof.Machine
end

