-- ==== Sys2Proof/Syntax.lean ====
section
/-! DEFINITION. The command set: one constructor for each of the 26 rows of spec/opcode_table.json (30_encoding.md R75),
with the operands of its signature (R72) in signature order. -/

namespace Sys2Proof

/-- A command with its operands (R70, R72, R75). An operand is a value, not a reference. -/
inductive Instr where
  /-- NOP (44_control.md R230). -/
  | nop
  /-- CRC.CLR (40_crc.md R113). -/
  | crcClr
  /-- CRC.FEED `b8 b` (R114). -/
  | crcFeed (b : Byte)
  /-- CRC.READ (R115). -/
  | crcRead
  /-- CRC.BLOCK `seq s` (R116). -/
  | crcBlock (data : List Byte)
  /-- CRC.CALC `seq s` (R117). -/
  | crcCalc (data : List Byte)
  /-- CRC.FCS `seq p` (R118). -/
  | crcFcs (payload : List Byte)
  /-- CRC.CHECK `seq s` (R119). -/
  | crcCheck (data : List Byte)
  /-- ENC.ESC `b8 b` (41_frame_encode.md R132). -/
  | encEsc (b : Byte)
  /-- ENC.STUFF `seq s` (R133). -/
  | encStuff (data : List Byte)
  /-- ENC.FRAME `b8 prefix, seq p` (R134). -/
  | encFrame (pfx : Byte) (payload : List Byte)
  /-- RX.START (42_frame_decode.md R155). -/
  | rxStart
  /-- RX.BYTE `b8 b` (R156). -/
  | rxByte (b : Byte)
  /-- RX.TIMEOUT (R159). -/
  | rxTimeout
  /-- RX.EOS (R160). -/
  | rxEos
  /-- RX.READ (R162). -/
  | rxRead
  /-- RX.DECODE `seq s` (R163). -/
  | rxDecode (data : List Byte)
  /-- DEC.UNSTUFF `seq s` (R164). -/
  | decUnstuff (data : List Byte)
  /-- DEC.BODY `seq s` (R165). -/
  | decBody (body : List Byte)
  /-- NUM.FIELDS `b8 e` (43_numeric_decode.md R200). -/
  | numFields (e : Byte)
  /-- NUM.MANT `seq m` (R201). -/
  | numMant (m : List Byte)
  /-- NUM.VALUE `b8 e, seq m` (R202). -/
  | numValue (e : Byte) (m : List Byte)
  /-- NUM.SINGLE `u16 id, seq p` (R203). -/
  | numSingle (id : Word) (payload : List Byte)
  /-- NUM.MULTI `idseq ids, seq p` (R204). -/
  | numMulti (ids : List Word) (payload : List Byte)
  /-- CTL.WR `b8 v` (44_control.md R231). -/
  | ctlWr (v : Byte)
  /-- CTL.RD (R232). -/
  | ctlRd
  deriving DecidableEq, Repr

end Sys2Proof
end

