-- ==== Sys2Proof/Decode.lean ====
section
/-! DEFINITION. The serialised command (30_encoding.md R70 to R77): the decoder, total on any bytes, then the encoder,
then how the opcode table's numbers are laid out as bytes for the host's questions. -/

namespace Sys2Proof

open Sys2Proof.Machine

/-- What the first bytes on a byte-stream command port are. -/
inductive Decoded where
  /-- A whole command, and the bytes after it. -/
  | command (i : Instr) (rest : List Byte)
  /-- An unassigned opcode byte, which is the whole command (R76), and the bytes after it. -/
  | illegal (opcode : Byte) (rest : List Byte)
  /-- No whole command is present: nothing is issued until more bytes arrive (R77). -/
  | incomplete
  deriving DecidableEq, Repr

/-- A command once its operands have been read; without them the bytes end inside the command (R77). -/
def Decoded.ofOperands {α : Type} (mk : α → Instr) : Option (α × List Byte) → Decoded
  | some (operands, rest) => .command (mk operands) rest
  | none => .incomplete

/-- Two operands in signature order (R70). -/
def takeBoth {α β : Type} (first : List Byte → Option (α × List Byte)) (second : List Byte → Option (β × List Byte))
    (bs : List Byte) : Option ((α × β) × List Byte) :=
  (first bs).bind fun p => (second p.2).map fun q => ((p.1, q.1), q.2)

/-- The first command of a byte stream (R73, R77). The whole opcode byte is matched (mask `0xFF`, R71), and an opcode
byte not in R75's map is illegal (R76). -/
def decode : List Byte → Decoded
  | [] => .incomplete
  | op :: bs =>
    match op with
    | 0x00#8 => .command .nop bs
    | 0x01#8 => .command .crcClr bs
    | 0x02#8 => .ofOperands .crcFeed (takeB8 bs)
    | 0x03#8 => .command .crcRead bs
    | 0x04#8 => .ofOperands .crcBlock (takeSeq bs)
    | 0x05#8 => .ofOperands .crcCalc (takeSeq bs)
    | 0x06#8 => .ofOperands .crcFcs (takeSeq bs)
    | 0x07#8 => .ofOperands .crcCheck (takeSeq bs)
    | 0x10#8 => .ofOperands .encEsc (takeB8 bs)
    | 0x11#8 => .ofOperands .encStuff (takeSeq bs)
    | 0x12#8 => .ofOperands (fun p => .encFrame p.1 p.2) (takeBoth takeB8 takeSeq bs)
    | 0x20#8 => .command .rxStart bs
    | 0x21#8 => .ofOperands .rxByte (takeB8 bs)
    | 0x22#8 => .command .rxTimeout bs
    | 0x23#8 => .command .rxEos bs
    | 0x24#8 => .command .rxRead bs
    | 0x25#8 => .ofOperands .rxDecode (takeSeq bs)
    | 0x26#8 => .ofOperands .decUnstuff (takeSeq bs)
    | 0x27#8 => .ofOperands .decBody (takeSeq bs)
    | 0x30#8 => .ofOperands .numFields (takeB8 bs)
    | 0x31#8 => .ofOperands .numMant (takeSeq bs)
    | 0x32#8 => .ofOperands (fun p => .numValue p.1 p.2) (takeBoth takeB8 takeSeq bs)
    | 0x33#8 => .ofOperands (fun p => .numSingle p.1 p.2) (takeBoth takeU16 takeSeq bs)
    | 0x34#8 => .ofOperands (fun p => .numMulti p.1 p.2) (takeBoth takeIdSeq takeSeq bs)
    | 0x40#8 => .ofOperands .ctlWr (takeB8 bs)
    | 0x41#8 => .command .ctlRd bs
    | _ => .illegal op bs

/-- The opcode byte of a command (R75). -/
def Instr.opcode : Instr → Byte
  | .nop => 0x00#8
  | .crcClr => 0x01#8
  | .crcFeed _ => 0x02#8
  | .crcRead => 0x03#8
  | .crcBlock _ => 0x04#8
  | .crcCalc _ => 0x05#8
  | .crcFcs _ => 0x06#8
  | .crcCheck _ => 0x07#8
  | .encEsc _ => 0x10#8
  | .encStuff _ => 0x11#8
  | .encFrame _ _ => 0x12#8
  | .rxStart => 0x20#8
  | .rxByte _ => 0x21#8
  | .rxTimeout => 0x22#8
  | .rxEos => 0x23#8
  | .rxRead => 0x24#8
  | .rxDecode _ => 0x25#8
  | .decUnstuff _ => 0x26#8
  | .decBody _ => 0x27#8
  | .numFields _ => 0x30#8
  | .numMant _ => 0x31#8
  | .numValue _ _ => 0x32#8
  | .numSingle _ _ => 0x33#8
  | .numMulti _ _ => 0x34#8
  | .ctlWr _ => 0x40#8
  | .ctlRd => 0x41#8

/-- The serialised operands of a command, in signature order (R73). -/
def Instr.operandBytes : Instr → List Byte
  | .nop => []
  | .crcClr => []
  | .crcFeed b => [b]
  | .crcRead => []
  | .crcBlock s => putSeq s
  | .crcCalc s => putSeq s
  | .crcFcs p => putSeq p
  | .crcCheck s => putSeq s
  | .encEsc b => [b]
  | .encStuff s => putSeq s
  | .encFrame pfx p => pfx :: putSeq p
  | .rxStart => []
  | .rxByte b => [b]
  | .rxTimeout => []
  | .rxEos => []
  | .rxRead => []
  | .rxDecode s => putSeq s
  | .decUnstuff s => putSeq s
  | .decBody s => putSeq s
  | .numFields e => [e]
  | .numMant m => putSeq m
  | .numValue e m => e :: putSeq m
  | .numSingle id p => be16 id ++ putSeq p
  | .numMulti ids p => putIdSeq ids ++ putSeq p
  | .ctlWr v => [v]
  | .ctlRd => []

/-- The serialised command: the opcode, then each operand in order (R73). -/
def encode (i : Instr) : List Byte := i.opcode :: i.operandBytes

/-- A number of the opcode table as bytes: bits 7..0 are the first byte, bits 15..8 the second, and so on. -/
def tableBytes : Nat → Nat → List Byte
  | 0, _ => []
  | n + 1, w => BitVec.ofNat 8 w :: tableBytes n (w / 256)

/-- The length of the longest serialised command, NUM.MULTI with 255 ids and 65535 payload bytes (R72, R73). -/
def maxCommandBytes : Nat := 1 + (1 + 2 * idSeqMax) + (2 + seqMax)

/-- The bytes of the table's number `w` of `nbits` bits, every bit above them zero. -/
def tableStream (nbits w : Nat) : List Byte :=
  tableBytes ((nbits + 7) / 8) w ++ List.replicate maxCommandBytes 0

/-- The instruction the decoder reads from the table's number `w`; none where it refuses it. -/
def decodeTableWord (nbits w : Nat) : Option Instr :=
  match decode (tableStream nbits w) with
  | .command i _ => some i
  | .illegal _ _ => none
  | .incomplete => none

/-- The bytes of exactly the one command that the table's number `w` begins: an unassigned opcode byte is a whole
command (R76). -/
def tableCommand (nbits w : Nat) : List Byte :=
  match decode (tableStream nbits w) with
  | .command i _ => encode i
  | .illegal op _ => [op]
  | .incomplete => []

end Sys2Proof
end

