-- ==== Sys2Proof/Machine/State.lean ====
section
/-! DEFINITION. The architectural state (10_state.md R20 to R27), the response record (30_encoding.md R74), the outcome codes
(60_exceptions.md R250), the block's ports (20_memory.md R51), and the state after reset (70_reset_and_hazards.md R280). -/

namespace Sys2Proof.Machine

/-- `RXS`, the receive state (R24). Its encoding `3` is never held, so it is no constructor (log 9). -/
inductive RxState where
  /-- No decode in progress. -/
  | idle
  /-- A decode waits for the start marker. -/
  | seeking
  /-- A decode has seen the start marker. -/
  | accum
  deriving DecidableEq, Repr

/-- The 2-bit encoding of `RXS` (R24). -/
def RxState.code : RxState → BitVec 2
  | .idle => 0
  | .seeking => 1
  | .accum => 2

/-- The outcome codes (R250). `0xA` to `0xF` are never produced, so they are no constructors (U21). -/
inductive Code where
  | ok | timeout | framing | integrity | protoMismatch | truncated | invalidArg | overflow | badState | illegalCmd
  deriving DecidableEq, Repr

/-- The 4-bit number of an outcome code (R250). -/
def Code.bits : Code → BitVec 4
  | .ok => 0x0
  | .timeout => 0x1
  | .framing => 0x2
  | .integrity => 0x3
  | .protoMismatch => 0x4
  | .truncated => 0x5
  | .invalidArg => 0x6
  | .overflow => 0x7
  | .badState => 0x8
  | .illegalCmd => 0x9

/-- The warning set of a response, in its 3-bit encoding (R74, R252). -/
abbrev Warnings := BitVec 3

/-- A record result `(id, unit, mlen, vneg, mant, exp)` (43_numeric_decode.md R195 and its section 3). -/
structure Record where
  id : Word
  unit : Byte
  mlen : Byte
  vneg : Bool
  mant : Nat
  exp : Int
  deriving DecidableEq, Repr

/-- The response record (R74): one code, the warnings, and the data fields of R75. A field that the path taken does not
produce is absent (`none`). `recd` and `recs` are the spec's `rec` and `recs`. -/
structure Response where
  code : Code := .ok
  warn : Warnings := 0
  crc : Option Word := none
  fcsbytes : Option (List Byte) := none
  ok : Option Bool := none
  out : Option (List Byte) := none
  frame : Option (List Byte) := none
  rxs : Option RxState := none
  done : Option Bool := none
  rxst : Option Byte := none
  payload : Option (List Byte) := none
  consumed : Option Word := none
  vneg : Option Bool := none
  eneg : Option Bool := none
  emag : Option (BitVec 6) := none
  exp : Option Int := none
  mant : Option Nat := none
  recd : Option Record := none
  recs : Option (List Record) := none
  ctrl : Option Byte := none
  deriving DecidableEq, Repr

/-- A fault that stops the machine. There is none: every outcome is recoverable and there is no fatal or stuck state
(60_exceptions.md R255, R264). Nothing raises one, which is safe: no behaviour the spec gives is cut short (log 11). -/
inductive Fault where
  deriving DecidableEq, Repr

/-- A refusal of the model. -/
inductive Refusal where
  /-- Raised by an arm of `exec` that has no meaning yet; safe, since it stops where the block goes on. No arm raises it:
  every command has its meaning. -/
  | notModelled (mnemonic : String)
  deriving DecidableEq, Repr

/-- The state of the block: its six registers (R20), and the model's fields for its ports and its reset input. -/
structure State where
  /-- `CRC`, the CRCU accumulator (R22). -/
  crc : Word
  /-- `CTRL`, bit 0 `STRICT_CRC`, bits 7:1 reserved (R23). -/
  ctrl : Byte
  /-- `RXS`, the receive state (R24). -/
  rxs : RxState
  /-- `RXBUF`, the accumulation buffer, raw bytes from the start marker on (R25). -/
  rxbuf : List Byte
  /-- `RXP`, the received payload (R26). -/
  rxp : List Byte
  /-- `RXST`, the receive status (R27). -/
  rxst : Byte
  /-- The command port: serialised commands the host has presented and the block has not taken (R51, R73). Log 1. -/
  cmd : List Byte
  /-- The response port: the response of the last command (R51, R74). Log 3. -/
  resp : Option Response
  /-- The reset input (R281). Log 4. -/
  rst : Bool
  deriving DecidableEq, Repr

/-- Write `CRC`. -/
def State.setCrc (s : State) (v : Word) : State := { s with crc := v }

/-- Write `CTRL`. -/
def State.setCtrl (s : State) (v : Byte) : State := { s with ctrl := v }

/-- Write `RXS` and `RXBUF`, which every command that writes one writes together (R33). -/
def State.setRx (s : State) (st : RxState) (buf : List Byte) : State := { s with rxs := st, rxbuf := buf }

/-- Write `RXP` and `RXST`, which every command that writes one writes together (R33). -/
def State.setResult (s : State) (payload : List Byte) (status : Byte) : State := { s with rxp := payload, rxst := status }

/-- What is left on the command port. -/
def State.setCmd (s : State) (bs : List Byte) : State := { s with cmd := bs }

/-- Put a response on the response port. -/
def State.setResp (s : State) (r : Response) : State := { s with resp := some r }

/-- Drive the reset input. -/
def State.setRst (s : State) (level : Bool) : State := { s with rst := level }

/-- The machine right after reset: every register at R280's value; nothing on either port and the reset input low (log 1,
log 3, log 4). -/
def State.reset : State where
  crc := 0x0000
  ctrl := 0x00
  rxs := .idle
  rxbuf := []
  rxp := []
  rxst := 0x00
  cmd := []
  resp := none
  rst := false

end Sys2Proof.Machine
end

