-- ==== Sys2Proof/Machine/Flags.lean ====
section
/-! DEFINITION. The bits a command computes: warnings (60_exceptions.md R252) and receive status (10_state.md R27,
42_frame_decode.md R152). -/

namespace Sys2Proof.Machine

/-- Warning bit 0: an escape anomaly or a dangling introducer (R252). -/
def wEsc : Warnings := 1

/-- Warning bit 1: the CRC over a completed frame body is non-zero (R252). -/
def wCrc : Warnings := 2

/-- Warning bit 2: a unit code that `UnitTable` maps to none (R252). -/
def wUnit : Warnings := 4

/-- The warning `w` if its cause holds, else the empty set. -/
def warnIf (cause : Bool) (w : Warnings) : Warnings := if cause then w else 0

/-- `RXST` bit 0 (R27). -/
def stDone : Byte := 0x01
/-- `RXST` bit 1 (R27). -/
def stValid : Byte := 0x02
/-- `RXST` bit 2 (R27). -/
def stTimeout : Byte := 0x04
/-- `RXST` bit 3 (R27). -/
def stFraming : Byte := 0x08
/-- `RXST` bit 4 (R27). -/
def stCrcErr : Byte := 0x10
/-- `RXST` bit 5 (R27). -/
def stEscWarn : Byte := 0x20
/-- `RXST` bit 6 (R27). -/
def stOverflow : Byte := 0x40

/-- The bits of `RXST` that exist: bit 7 is reserved and reads 0 (R27). -/
def rxstMask : Byte := 0x7F

/-- A status bit if its cause holds, else no bit. -/
def statusIf (cause : Bool) (bit : Byte) : Byte := if cause then bit else 0

/-- The status of a completed frame: `DONE | (valid ? VALID : 0) | (ce ? CRCERR : 0) | (w ? ESCWARN : 0)` (R152). -/
def completionStatus (valid crcErr escWarn : Bool) : Byte :=
  stDone ||| statusIf valid stValid ||| statusIf crcErr stCrcErr ||| statusIf escWarn stEscWarn

/-- The warnings of a completed frame: `(w ? {W_ESC} : {}) + (ce ? {W_CRC} : {})` (R152). -/
def completionWarnings (crcErr escWarn : Bool) : Warnings := warnIf escWarn wEsc ||| warnIf crcErr wCrc

end Sys2Proof.Machine
end

