-- ==== Sys2Proof/Machine/Ops.lean ====
section
/-! DEFINITION. The operations every command shares: the register accessors, how a command ends (with `OK` or by `raise`, the
block having no traps), how a decode ends, the illegal command, and the reset input. -/

namespace Sys2Proof.Machine

/-- The answer of one step. -/
abbrev Result := Host.Outcome State Fault Refusal

/-- `UnitTable` (00_scope.md R9, 30_encoding.md R90): the three entries the spec gives, none above 64, and an open entry
for every other code (log 6). -/
def unitTable (u : Byte) : Option UnitSymbol :=
  if u = 1 then some "Wh"
  else if u = 21 then some "kW"
  else if u = 40 then some "m3"
  else if 64 < u.toNat then none
  else Config.openUnit u

/-- The parameters of this block (R9): `RX_BODY_MAX` and the rest of `UnitTable` are open (log 5, log 6), and
`MULTI_REC_ID_BYTES` is the spec's 0 (log 7). -/
def blockConfig : Config where
  rxBodyMax := Config.openRxBodyMax
  unitTable := unitTable
  multiRecIdBytes := 0

/-- Reading `CTRL`: bits 7:1 read as zero (10_state.md R23). -/
def State.readCtrl (s : State) : Byte := s.ctrl &&& 0x01

/-- Writing `CTRL`: what is written to bits 7:1 is ignored (R23, 44_control.md R231). -/
def State.writeCtrl (s : State) (v : Byte) : State := s.setCtrl (v &&& 0x01)

/-- `CTRL.STRICT_CRC` (R23). -/
def State.strict (s : State) : Bool := s.ctrl.getLsbD 0

/-- Reading `RXST`: bit 7 reads 0 (R27). -/
def State.readRxst (s : State) : Byte := s.rxst &&& rxstMask

/-- A command reaches its end: exactly one response, on the response port (00_scope.md R13, 30_encoding.md R74). -/
def reply (r : Response) (s : State) : Result := .next (s.setResp r)

/-- `raise X` (R13, 60_exceptions.md R255): the command ends with code `X`, the warnings and the data fields in `r`; the
writes already in `s` stand. No trap is taken: no control transfer, no saved state, no mode. -/
def raise (c : Code) (r : Response) (s : State) : Result := reply { r with code := c } s

/-- The writes of a command that ends a decode: `RXS` idle, `RXBUF` empty, and the result it leaves (R158 to R161). -/
def State.endDecode (s : State) (payload : List Byte) (status : Byte) : State := (s.setRx .idle []).setResult payload status

/-- An unassigned opcode: code `ILLEGAL_CMD`, no data fields, no state change (30_encoding.md R76). -/
def illegalCommand (s : State) : Result := raise .illegalCmd {} s

/-- The reset input acts between two commands: every register takes its reset value, a decode in progress is abandoned
without an outcome, and the input falls (70_reset_and_hazards.md R280, R281). What the host still has on the command port
stays there (log 4). -/
def State.applyReset (s : State) : State := State.reset.setCmd s.cmd

end Sys2Proof.Machine
end

