-- ==== Sys2Proof/Machine/Control.lean ====
section
/-! DEFINITION. NOP and the control register (44_control.md R230 to R232). -/

namespace Sys2Proof.Machine

/-- NOP (R230). -/
def execNop (s : State) : Result := reply {} s

/-- CTL.WR (R231): the response carries `CTRL` as it now reads. -/
def execCtlWr (v : Byte) (s : State) : Result :=
  reply { ctrl := some (s.writeCtrl v).readCtrl } (s.writeCtrl v)

/-- CTL.RD (R232). -/
def execCtlRd (s : State) : Result := reply { ctrl := some s.readCtrl } s

end Sys2Proof.Machine
end

