-- ==== Sys2Proof/Machine/Crc.lean ====
section
/-! DEFINITION. The CRC-16 engine: its function (40_crc.md R110, R112) and the seven commands CRC.* (R113 to R119). -/

namespace Sys2Proof.Machine

/-- The polynomial `0x1021`, without its `x^16` term (10_state.md R28, R110). -/
def crcPoly : Word := 0x1021

/-- `crc_step1` (R110): the message bit enters at bit 0, the bit shifted out of bit 15 is the `x^16` term. -/
def crcStep1 (r : Word) (bit : Bool) : Word :=
  let shifted := (r <<< 1) ||| (if bit then 1 else 0)
  if r.getLsbD 15 then shifted ^^^ crcPoly else shifted

/-- The bits of a byte in the order the engine takes them: bit 7 first (R110, 20_memory.md R53). -/
def msbFirst (b : Byte) : List Bool := [7, 6, 5, 4, 3, 2, 1, 0].map b.getLsbD

/-- `crc_step8` (R110). -/
def crcStep8 (r : Word) (b : Byte) : Word := (msbFirst b).foldl crcStep1 r

/-- `crc_fold` (R110): the bytes in index order. -/
def crcFold (r : Word) (s : List Byte) : Word := s.foldl crcStep8 r

/-- `crc16(s) = crc_fold(0x0000, s)` (R110). -/
def crc16 (s : List Byte) : Word := crcFold 0x0000 s

/-- `fcs(P) = crc16(P ++ [0x00, 0x00])`, the frame check sequence (R112). -/
def fcs (p : List Byte) : Word := crc16 (p ++ [0x00, 0x00])

/-- CRC.CLR (R113). -/
def execCrcClr (s : State) : Result := reply {} (s.setCrc 0x0000)

/-- CRC.FEED (R114). -/
def execCrcFeed (b : Byte) (s : State) : Result :=
  reply { crc := some (crcStep8 s.crc b) } (s.setCrc (crcStep8 s.crc b))

/-- CRC.READ (R115). -/
def execCrcRead (s : State) : Result := reply { crc := some s.crc } s

/-- CRC.BLOCK (R116). -/
def execCrcBlock (data : List Byte) (s : State) : Result :=
  reply { crc := some (crcFold s.crc data) } (s.setCrc (crcFold s.crc data))

/-- CRC.CALC (R117). -/
def execCrcCalc (data : List Byte) (s : State) : Result :=
  reply { crc := some (crc16 data) } (s.setCrc (crc16 data))

/-- CRC.FCS (R118). -/
def execCrcFcs (payload : List Byte) (s : State) : Result :=
  reply { crc := some (fcs payload), fcsbytes := some (be16 (fcs payload)) } (s.setCrc (fcs payload))

/-- CRC.CHECK (R119). -/
def execCrcCheck (data : List Byte) (s : State) : Result :=
  reply { crc := some (crc16 data), ok := some (crc16 data == 0x0000) } (s.setCrc (crc16 data))

end Sys2Proof.Machine
end

