-- ==== Sys2Proof/Machine/Encode.lean ====
section
/-! DEFINITION. The transmit side of the frame codec: escaping and framing (41_frame_encode.md R130, R131) and the commands
ENC.* (R132 to R134). The CRC they use is a private engine, not `CRC` (10_state.md R22). -/

namespace Sys2Proof.Machine

/-- The escape introducer `0x1B` (10_state.md R28, 30_encoding.md R80). -/
def escIntro : Byte := 0x1B
/-- The start marker `SOM` (R28). -/
def startMarker : Byte := 0x40
/-- The terminator `EOM` (R28). -/
def terminator : Byte := 0x0D

/-- Membership of the escape set `ESC` (R28, R80). -/
def inEscapeSet (b : Byte) : Bool := b == 0x06 || b == 0x0D || b == 0x1B || b == 0x40 || b == 0x80

/-- `esc` (R130). -/
def esc (b : Byte) : List Byte := if inEscapeSet b then [escIntro, b ^^^ 0xFF] else [b]

/-- `stuff` (R131). -/
def stuff (s : List Byte) : List Byte := s.flatMap esc

/-- A payload with its frame check sequence, high byte first: the escaped content of a frame (R131). -/
def withFcs (payload : List Byte) : List Byte := payload ++ be16 (fcs payload)

/-- `frame` (R131): neither the address byte nor the terminator is escaped or covered by the FCS. -/
def frame (pfx : Byte) (payload : List Byte) : List Byte := [pfx] ++ stuff (withFcs payload) ++ [terminator]

/-- ENC.ESC (R132). -/
def execEncEsc (b : Byte) (s : State) : Result := reply { out := some (esc b) } s

/-- ENC.STUFF (R133). -/
def execEncStuff (data : List Byte) (s : State) : Result := reply { out := some (stuff data) } s

/-- ENC.FRAME (R134). -/
def execEncFrame (pfx : Byte) (payload : List Byte) (s : State) : Result := reply { frame := some (frame pfx payload) } s

end Sys2Proof.Machine
end

