-- ==== Sys2Proof/Machine/Numeric.lean ====
section
/-! DEFINITION. The fixed-point numeric decoder: field extraction and the response parsers (43_numeric_decode.md R190 to
R198) and the commands NUM.* (R200 to R204). It reads and writes no register. -/

namespace Sys2Proof.Machine

/-- The fields of an exponent byte (30_encoding.md R86, R190). -/
structure ExpFields where
  vneg : Bool
  eneg : Bool
  emag : BitVec 6
  exp : Int
  deriving DecidableEq, Repr

/-- `fields` (R190): sign and magnitude, not two's complement. -/
def fields (e : Byte) : ExpFields :=
  let emag := e.extractLsb' 0 6
  let eneg := e.getLsbD 6
  { vneg := e.getLsbD 7
    eneg := eneg
    emag := emag
    exp := if eneg then -(emag.toNat : Int) else (emag.toNat : Int) }

/-- `mant` (R191): big-endian and unsigned, exact. -/
def mant (m : List Byte) : Nat := m.foldl (fun x b => 256 * x + b.toNat) 0

/-- The rational a triple `(vneg, mant, exp)` denotes (R192): exact, no rounding. -/
def tripleValue (vneg : Bool) (m : Nat) (exp : Int) : Rat :=
  let magnitude : Rat := if 0 ≤ exp then (m : Rat) * (10 : Rat) ^ exp.toNat else (m : Rat) / (10 : Rat) ^ (-exp).toNat
  if vneg then -magnitude else magnitude

/-- `value` (R192): what an exponent byte and a mantissa denote. -/
def value (e : Byte) (m : List Byte) : Rat := tripleValue (fields e).vneg (mant m) (fields e).exp

/-- The value of a record result (43_numeric_decode.md, section 3). -/
def Record.value (r : Record) : Rat := tripleValue r.vneg r.mant r.exp

/-- The longest mantissa a record can declare, in bytes (00_scope.md R9, R191). -/
def mantissaMax : Nat := 255

/-- `dregion` (R194): a delivered payload without its two FCS bytes. -/
def dregion (p : List Byte) : List Byte := if 2 ≤ p.length then p.take (p.length - 2) else []

/-- The echoed destination and command id of a response (30_encoding.md R97). -/
def echoDest : Byte := 0x3F
/-- The echoed command id of a response (R97). -/
def echoCmd : Byte := 0x10

/-- The warning for a unit code that `UnitTable` does not know (R197). -/
def unitWarning (cfg : Config) (u : Byte) : Warnings := warnIf (cfg.unitTable u).isNone wUnit

/-- The record result of the fields found for a register id (R195, R196). -/
def mkRecord (id : Word) (u mlen e : Byte) (m : List Byte) : Record :=
  { id := id, unit := u, mlen := mlen, vneg := (fields e).vneg, mant := mant m, exp := (fields e).exp }

/-- `decode_single` (R195): header length, then destination and command, then id, then mantissa length; the first check that
fails decides the outcome (60_exceptions.md R254). Bytes after the mantissa are ignored. -/
def decodeSingle (cfg : Config) (p : List Byte) (id : Word) : Except Code (Warnings × Record) :=
  match dregion p with
  | d0 :: d1 :: d2 :: d3 :: u :: mlen :: e :: body =>
    if d0 ≠ echoDest ∨ d1 ≠ echoCmd then .error .protoMismatch
    else if u16be d2 d3 ≠ id then .error .protoMismatch
    else if body.length < mlen.toNat then .error .truncated
    else .ok (unitWarning cfg u, mkRecord id u mlen e (body.take mlen.toNat))
  | _ => .error .truncated

/-- The record loop of `decode_multi` (R196): one record for each id, from the bytes at `pos` on; nothing when a record
header or a mantissa is incomplete. -/
def decodeRecords (cfg : Config) : List Word → List Byte → Option (Warnings × List Record)
  | [], _ => some (0, [])
  | id :: ids, d =>
    match d.drop cfg.multiRecIdBytes with
    | u :: mlen :: e :: body =>
      if body.length < mlen.toNat then none
      else
        (decodeRecords cfg ids (body.drop mlen.toNat)).map fun r =>
          (unitWarning cfg u ||| r.1, mkRecord id u mlen e (body.take mlen.toNat) :: r.2)
    | _ => none

/-- `decode_multi` (R196): id count, then payload length, then header, then each record in order (R254). -/
def decodeMulti (cfg : Config) (p : List Byte) (ids : List Word) : Except Code (Warnings × List Record) :=
  if ids.length = 0 ∨ 255 < ids.length then .error .invalidArg
  else
    match dregion p with
    | d0 :: d1 :: records =>
      if d0 ≠ echoDest ∨ d1 ≠ echoCmd then .error .protoMismatch
      else
        match decodeRecords cfg ids records with
        | some r => .ok r
        | none => .error .truncated
    | _ => .error .truncated

/-- NUM.FIELDS (R200). -/
def execNumFields (e : Byte) (s : State) : Result :=
  let f := fields e
  reply { vneg := some f.vneg, eneg := some f.eneg, emag := some f.emag, exp := some f.exp } s

/-- NUM.MANT (R201). -/
def execNumMant (m : List Byte) (s : State) : Result :=
  if mantissaMax < m.length then raise .invalidArg {} s else reply { mant := some (mant m) } s

/-- NUM.VALUE (R202). -/
def execNumValue (e : Byte) (m : List Byte) (s : State) : Result :=
  if mantissaMax < m.length then raise .invalidArg {} s
  else reply { vneg := some (fields e).vneg, mant := some (mant m), exp := some (fields e).exp } s

/-- NUM.SINGLE (R203) for given parameters. -/
def numSingle (cfg : Config) (id : Word) (payload : List Byte) (s : State) : Result :=
  match decodeSingle cfg payload id with
  | .ok (warn, r) => reply { warn := warn, recd := some r } s
  | .error c => raise c {} s

/-- NUM.SINGLE (R203). -/
def execNumSingle (id : Word) (payload : List Byte) (s : State) : Result := numSingle blockConfig id payload s

/-- NUM.MULTI (R204) for given parameters. -/
def numMulti (cfg : Config) (ids : List Word) (payload : List Byte) (s : State) : Result :=
  match decodeMulti cfg payload ids with
  | .ok (warn, rs) => reply { warn := warn, recs := some rs } s
  | .error c => raise c {} s

/-- NUM.MULTI (R204). -/
def execNumMulti (ids : List Word) (payload : List Byte) (s : State) : Result := numMulti blockConfig ids payload s

end Sys2Proof.Machine
end

