-- ==== Sys2Proof/Machine/Receive.lean ====
section
/-! DEFINITION. The receive side of the frame codec: the unescaper, frame completion and the receive state machine
(42_frame_decode.md R150 to R154), the commands RX.* (R155 to R163) and DEC.* (R164, R165). -/

namespace Sys2Proof.Machine

/-- `unstuff` (R150): left to right, pairs do not overlap. A pair that decodes to a byte outside the escape set is kept
and reported (R151); an introducer with no byte after it is dropped and reported. -/
def unstuff : List Byte → List Byte × Bool
  | [] => ([], false)
  | b :: rest =>
    if b = escIntro then
      match rest with
      | [] => ([], true)
      | c :: rest' =>
        let v := c ^^^ 0xFF
        (v :: (unstuff rest').1, (unstuff rest').2 || !inEscapeSet v)
    else (b :: (unstuff rest).1, (unstuff rest).2)

/-- What `complete` answers (R152). -/
structure Completion where
  code : Code
  warn : Warnings
  payload : List Byte
  rxst : Byte
  deriving DecidableEq, Repr

/-- `complete` (R152, R153). The delivered payload keeps its two FCS bytes. -/
def complete (body : List Byte) (strict : Bool) : Completion :=
  let u := (unstuff body).1
  let w := (unstuff body).2
  let ce := crc16 u != 0x0000
  let valid := !(strict && ce)
  { code := if valid then .ok else .integrity
    warn := completionWarnings ce w
    payload := if valid then u else []
    rxst := completionStatus valid ce w }

/-- What one received byte brings about (R154). -/
inductive RxEvent where
  /-- The frame is not complete. -/
  | none
  /-- The terminator arrived: the bytes between the markers. -/
  | frame (body : List Byte)
  /-- A data byte arrived while the body held `RX_BODY_MAX` bytes (R161). -/
  | overflow
  deriving DecidableEq, Repr

/-- The body already holds `RX_BODY_MAX` bytes: `|buf| - 1 = RX_BODY_MAX`, never with `INF` (R154, R161). -/
def bodyFull (max : Option Nat) (buf : List Byte) : Bool :=
  match max with
  | some m => buf.length == m + 1
  | none => false

/-- `rx_step` (R154). DESIGN CHOICE (log 15): a start marker in `ACCUM` leaves `RXBUF = [0x40]`, as R154, R32 and
spec/95_test_vectors.md have it, where R166 and R31 say that a restart leaves `RXBUF` empty. The function is not asked in `IDLE`,
where RX.BYTE raises `BAD_STATE` first; that arm changes nothing (log 12). -/
def rxStep (max : Option Nat) (st : RxState) (buf : List Byte) (b : Byte) : RxState × List Byte × RxEvent :=
  match st with
  | .idle => (.idle, buf, .none)
  | .seeking => if b = startMarker then (.accum, [startMarker], .none) else (.seeking, [], .none)
  | .accum =>
    if b = startMarker then (.accum, [startMarker], .none)
    else if b = terminator then (.idle, [], .frame (buf.drop 1))
    else if bodyFull max buf then (.idle, [], .overflow)
    else (.accum, buf ++ [b], .none)

/-- RX.START (R155): allowed in every state, it abandons a decode in progress. -/
def execRxStart (s : State) : Result := reply {} ((s.setRx .seeking []).setResult [] 0x00)

/-- The completion step of RX.BYTE (R158), `RXS` and `RXBUF` being written already. -/
def finishFrame (body : List Byte) (s : State) : Result :=
  let c := complete body s.strict
  let r : Response := { warn := c.warn, rxs := some s.rxs, done := some true }
  let s' := s.setResult c.payload c.rxst
  if c.code = .ok then reply r s' else raise c.code r s'

/-- The overflow step of RX.BYTE (R161), `RXS` and `RXBUF` being written already. -/
def overflowFrame (s : State) : Result :=
  raise .overflow { rxs := some s.rxs, done := some false } (s.setResult [] stOverflow)

/-- RX.BYTE (R156) for a given `RX_BODY_MAX`. -/
def rxByte (max : Option Nat) (b : Byte) (s : State) : Result :=
  if s.rxs = .idle then raise .badState {} s
  else
    let (st, buf, event) := rxStep max s.rxs s.rxbuf b
    let s' := s.setRx st buf
    match event with
    | .none => reply { rxs := some s'.rxs, done := some false } s'
    | .frame body => finishFrame body s'
    | .overflow => overflowFrame s'

/-- RX.BYTE (R156). -/
def execRxByte (b : Byte) (s : State) : Result := rxByte blockConfig.rxBodyMax b s

/-- RX.TIMEOUT (R159). -/
def execRxTimeout (s : State) : Result :=
  if s.rxs = .idle then raise .badState {} s else raise .timeout {} (s.endDecode [] stTimeout)

/-- RX.EOS (R160). -/
def execRxEos (s : State) : Result :=
  if s.rxs = .idle then raise .badState {} s else raise .framing {} (s.endDecode [] stFraming)

/-- RX.READ (R162). -/
def execRxRead (s : State) : Result :=
  reply { rxs := some s.rxs, rxst := some s.readRxst, payload := some s.rxp } s

/-- The loop of RX.DECODE (R163) over a private receiver: `k` bytes have been used, the list is what is left. DESIGN CHOICE
(log 16): on `OVERFLOW` the response carries no `done`, as R163's pseudocode and R75's field list have it, where R161's step,
said to run inside RX.DECODE too, writes `resp.done <- 0`. -/
def decodeLoop (max : Option Nat) (strict : Bool) : RxState → List Byte → Nat → List Byte → Response
  | _, _, k, [] =>
    { code := .framing, payload := some [], rxst := some stFraming, consumed := some (BitVec.ofNat 16 k) }
  | st, buf, k, b :: bs =>
    match rxStep max st buf b with
    | (st', buf', .none) => decodeLoop max strict st' buf' (k + 1) bs
    | (_, _, .frame body) =>
      let c := complete body strict
      { code := c.code, warn := c.warn, payload := some c.payload, rxst := some c.rxst,
        consumed := some (BitVec.ofNat 16 (k + 1)) }
    | (_, _, .overflow) =>
      { code := .overflow, payload := some [], rxst := some stOverflow, consumed := some (BitVec.ofNat 16 (k + 1)) }

/-- RX.DECODE (R163) for a given `RX_BODY_MAX`. -/
def rxDecode (max : Option Nat) (data : List Byte) (s : State) : Result :=
  let r := decodeLoop max s.strict .seeking [] 0 data
  if r.code = .ok then reply r s else raise r.code r s

/-- RX.DECODE (R163). -/
def execRxDecode (data : List Byte) (s : State) : Result := rxDecode blockConfig.rxBodyMax data s

/-- DEC.UNSTUFF (R164). -/
def execDecUnstuff (data : List Byte) (s : State) : Result :=
  reply { warn := warnIf (unstuff data).2 wEsc, out := some (unstuff data).1 } s

/-- DEC.BODY (R165). -/
def execDecBody (body : List Byte) (s : State) : Result :=
  let c := complete body s.strict
  let r : Response := { warn := c.warn, payload := some c.payload, rxst := some c.rxst }
  if c.code = .ok then reply r s else raise c.code r s

end Sys2Proof.Machine
end

