-- ==== Sys2Proof/Machine/Dispatch.lean ====
section
/-! DEFINITION. One arm per command, each a direct call of its meaning (30_encoding.md R75). -/

namespace Sys2Proof.Machine

def exec (i : Instr) (s : State) : Host.Outcome State Fault Refusal :=
  match i with
  | .nop => Sys2Proof.Machine.execNop s
  | .crcClr => Sys2Proof.Machine.execCrcClr s
  | .crcFeed b => Sys2Proof.Machine.execCrcFeed b s
  | .crcRead => Sys2Proof.Machine.execCrcRead s
  | .crcBlock data => Sys2Proof.Machine.execCrcBlock data s
  | .crcCalc data => Sys2Proof.Machine.execCrcCalc data s
  | .crcFcs payload => Sys2Proof.Machine.execCrcFcs payload s
  | .crcCheck data => Sys2Proof.Machine.execCrcCheck data s
  | .encEsc b => Sys2Proof.Machine.execEncEsc b s
  | .encStuff data => Sys2Proof.Machine.execEncStuff data s
  | .encFrame pfx payload => Sys2Proof.Machine.execEncFrame pfx payload s
  | .rxStart => Sys2Proof.Machine.execRxStart s
  | .rxByte b => Sys2Proof.Machine.execRxByte b s
  | .rxTimeout => Sys2Proof.Machine.execRxTimeout s
  | .rxEos => Sys2Proof.Machine.execRxEos s
  | .rxRead => Sys2Proof.Machine.execRxRead s
  | .rxDecode data => Sys2Proof.Machine.execRxDecode data s
  | .decUnstuff data => Sys2Proof.Machine.execDecUnstuff data s
  | .decBody body => Sys2Proof.Machine.execDecBody body s
  | .numFields e => Sys2Proof.Machine.execNumFields e s
  | .numMant m => Sys2Proof.Machine.execNumMant m s
  | .numValue e m => Sys2Proof.Machine.execNumValue e m s
  | .numSingle id payload => Sys2Proof.Machine.execNumSingle id payload s
  | .numMulti ids payload => Sys2Proof.Machine.execNumMulti ids payload s
  | .ctlWr v => Sys2Proof.Machine.execCtlWr v s
  | .ctlRd => Sys2Proof.Machine.execCtlRd s

end Sys2Proof.Machine
end

