-- ==== Sys2Proof/Machine/Step.lean ====
section
/-! DEFINITION. One step of the block: the reset input, else the first whole command on the command port
(00_scope.md R7, 30_encoding.md R77, 70_reset_and_hazards.md R281). -/

namespace Sys2Proof.Machine

/-- One step. The reset input acts between two commands (R281). Otherwise the first command on the port is taken off it
and executed; an unassigned opcode is a command of one byte (R76); while no whole command is present nothing is issued and
nothing changes (R77, R263, log 2). -/
def step (s : State) : Host.Outcome State Fault Refusal :=
  if s.rst then .next s.applyReset
  else
    match decode s.cmd with
    | .command i rest => exec i (s.setCmd rest)
    | .illegal _ rest => illegalCommand (s.setCmd rest)
    | .incomplete => .next s

/-- `s` with the command of the table's number `w` presented first on the command port and the reset input low, so that
the next step takes exactly that command (log 1). What was on the port stays behind it. -/
def State.withFetchWord (s : State) (nbits w : Nat) : State := (s.setCmd (tableCommand nbits w ++ s.cmd)).setRst false

end Sys2Proof.Machine
end

