-- ==== Sys2Proof/Machine/Assembler.lean ====
section
/-! DEFINITION. The assembler's side of a command: its written form (30_encoding.md R78) and the pseudo-instruction RX.FEED
(R79). The block never sees either. -/

namespace Sys2Proof.Machine

/-- RX.FEED (R79): one RX.BYTE for each byte, in order. -/
def rxFeed (bs : List Byte) : List Instr := bs.map Instr.rxByte

/-- One hexadecimal digit. -/
def hexDigit (n : Nat) : Char :=
  if n < 10 then Char.ofNat (48 + n) else Char.ofNat (55 + n)

/-- Two hexadecimal digits. -/
def hexByte (b : Byte) : List Char := [hexDigit (b.toNat / 16), hexDigit (b.toNat % 16)]

/-- A `b8` operand: `0xNN` (R78). -/
def asmB8 (b : Byte) : List Char := '0' :: 'x' :: hexByte b

/-- A `u16` operand: `0xNNNN` (R78). -/
def asmU16 (v : Word) : List Char := '0' :: 'x' :: (hexByte (v.extractLsb' 8 8) ++ hexByte (v.extractLsb' 0 8))

/-- Items with a separator between them. -/
def separated (sep : List Char) : List (List Char) → List Char
  | [] => []
  | [x] => x
  | x :: y :: rest => x ++ sep ++ separated sep (y :: rest)

/-- A `seq` operand: a bracketed list of two-digit bytes (R78). -/
def asmSeq (s : List Byte) : List Char := '[' :: (separated [' '] (s.map hexByte) ++ [']'])

/-- An `idseq` operand: a braced list of ids (R78); 123 and 125 are the codes of the two braces. -/
def asmIdSeq (ids : List Word) : List Char :=
  Char.ofNat 123 :: (separated [',', ' '] (ids.map asmU16) ++ [Char.ofNat 125])

/-- The mnemonic of a command (R75). -/
def mnemonic : Instr → String
  | .nop => "NOP"
  | .crcClr => "CRC.CLR"
  | .crcFeed _ => "CRC.FEED"
  | .crcRead => "CRC.READ"
  | .crcBlock _ => "CRC.BLOCK"
  | .crcCalc _ => "CRC.CALC"
  | .crcFcs _ => "CRC.FCS"
  | .crcCheck _ => "CRC.CHECK"
  | .encEsc _ => "ENC.ESC"
  | .encStuff _ => "ENC.STUFF"
  | .encFrame _ _ => "ENC.FRAME"
  | .rxStart => "RX.START"
  | .rxByte _ => "RX.BYTE"
  | .rxTimeout => "RX.TIMEOUT"
  | .rxEos => "RX.EOS"
  | .rxRead => "RX.READ"
  | .rxDecode _ => "RX.DECODE"
  | .decUnstuff _ => "DEC.UNSTUFF"
  | .decBody _ => "DEC.BODY"
  | .numFields _ => "NUM.FIELDS"
  | .numMant _ => "NUM.MANT"
  | .numValue _ _ => "NUM.VALUE"
  | .numSingle _ _ => "NUM.SINGLE"
  | .numMulti _ _ => "NUM.MULTI"
  | .ctlWr _ => "CTL.WR"
  | .ctlRd => "CTL.RD"

/-- The operands of a command as the assembler writes them, in signature order (R78). -/
def asmOperands : Instr → List (List Char)
  | .nop => []
  | .crcClr => []
  | .crcFeed b => [asmB8 b]
  | .crcRead => []
  | .crcBlock s => [asmSeq s]
  | .crcCalc s => [asmSeq s]
  | .crcFcs p => [asmSeq p]
  | .crcCheck s => [asmSeq s]
  | .encEsc b => [asmB8 b]
  | .encStuff s => [asmSeq s]
  | .encFrame pfx p => [asmB8 pfx, asmSeq p]
  | .rxStart => []
  | .rxByte b => [asmB8 b]
  | .rxTimeout => []
  | .rxEos => []
  | .rxRead => []
  | .rxDecode s => [asmSeq s]
  | .decUnstuff s => [asmSeq s]
  | .decBody s => [asmSeq s]
  | .numFields e => [asmB8 e]
  | .numMant m => [asmSeq m]
  | .numValue e m => [asmB8 e, asmSeq m]
  | .numSingle id p => [asmU16 id, asmSeq p]
  | .numMulti ids p => [asmIdSeq ids, asmSeq p]
  | .ctlWr v => [asmB8 v]
  | .ctlRd => []

/-- A command on one line: the mnemonic, then its operands separated by commas (R78). -/
def asmLine (i : Instr) : List Char :=
  match asmOperands i with
  | [] => (mnemonic i).toList
  | op :: ops => (mnemonic i).toList ++ [' '] ++ separated [',', ' '] (op :: ops)

end Sys2Proof.Machine
end

