-- ==== Sys2Proof/Machine/Formats.lean ====
section
/-! DEFINITION. The payload formats around the block that no command builds: what a request asks and what a response carries
(30_encoding.md R87 to R89, R95 to R97). The builder is outside the block (00_scope.md R5); its byte layout is kept. -/

namespace Sys2Proof.Machine

/-- A single-register read request (R95). -/
def singleRequest (id : Word) : List Byte := [echoDest, echoCmd, 0x01] ++ be16 id

/-- A multi-register read request (R96): 1 to 255 ids, none otherwise (the source's InvalidArgument). -/
def multiRequest (ids : List Word) : Option (List Byte) :=
  if 1 ≤ ids.length ∧ ids.length ≤ 255 then
    some ([echoDest, echoCmd, BitVec.ofNat 8 ids.length] ++ ids.flatMap be16)
  else none

/-- The fields of one register value on the wire. -/
structure WireRecord where
  unit : Byte
  e : Byte
  mantissa : List Byte
  deriving DecidableEq, Repr

/-- `[unit][mantissa_len][exponent][mantissa]` (R89); the mantissa must be at most 255 bytes. -/
def WireRecord.bytes (r : WireRecord) : List Byte :=
  [r.unit, BitVec.ofNat 8 r.mantissa.length, r.e] ++ r.mantissa

/-- The record result a decoder gives for a wire record read as register `id` (R195, R196). -/
def WireRecord.result (r : WireRecord) (id : Word) : Record :=
  { id := id, unit := r.unit, mlen := BitVec.ofNat 8 r.mantissa.length, vneg := (fields r.e).vneg,
    mant := mant r.mantissa, exp := (fields r.e).exp }

/-- A single-register response payload as the receiver delivers it, `extra` being the ignored bytes (R87). -/
def singleResponse (id : Word) (r : WireRecord) (extra : List Byte) : List Byte :=
  withFcs ([echoDest, echoCmd] ++ be16 id ++ r.bytes ++ extra)

/-- A multi-register response payload: the header once, the records back to back, ignored bytes, the FCS (R88). -/
def multiResponse (rs : List WireRecord) (extra : List Byte) : List Byte :=
  withFcs ([echoDest, echoCmd] ++ rs.flatMap WireRecord.bytes ++ extra)

end Sys2Proof.Machine
end

