-- ==== Sys2Proof/WellFormed.lean ====
section
/-! DEFINITION. The operand ranges of the command port (30_encoding.md R72): what a command that can be presented holds. -/

namespace Sys2Proof

/-- A `seq` operand: length 0..`SEQ_MAX` (R72). -/
def seqFits (s : List Byte) : Bool := decide (s.length ≤ seqMax)

/-- An `idseq` operand: count 0..255 (R72). -/
def idSeqFits (ids : List Word) : Bool := decide (ids.length ≤ idSeqMax)

/-- Every operand lies in the range of its kind (R72); `b8` and `u16` operands do by their type. -/
def Instr.wellFormed : Instr → Bool
  | .nop => true
  | .crcClr => true
  | .crcFeed _ => true
  | .crcRead => true
  | .crcBlock s => seqFits s
  | .crcCalc s => seqFits s
  | .crcFcs p => seqFits p
  | .crcCheck s => seqFits s
  | .encEsc _ => true
  | .encStuff s => seqFits s
  | .encFrame _ p => seqFits p
  | .rxStart => true
  | .rxByte _ => true
  | .rxTimeout => true
  | .rxEos => true
  | .rxRead => true
  | .rxDecode s => seqFits s
  | .decUnstuff s => seqFits s
  | .decBody s => seqFits s
  | .numFields _ => true
  | .numMant m => seqFits m
  | .numValue _ m => seqFits m
  | .numSingle _ p => seqFits p
  | .numMulti ids p => idSeqFits ids && seqFits p
  | .ctlWr _ => true
  | .ctlRd => true

end Sys2Proof
end

