-- ==== Sys2Proof/Safety.lean ====
section
/-! DEFINITION. What the statements speak of: the invariants of the block (10_state.md R27, R32), which command reads and
writes which register (R33), which command raises which outcome and warning (60_exceptions.md R250, R252), and runs of
several commands. -/

namespace Sys2Proof.Machine

/-- The legal values of `RXST` (R27): `0x00`, `0x04`, `0x08`, `0x40`, or `DONE` with any of `VALID`, `CRCERR`, `ESCWARN`
such that `VALID = 0` implies `CRCERR = 1`. -/
def legalStatus (v : Byte) : Bool :=
  v == 0x00 || v == stTimeout || v == stFraming || v == stOverflow ||
    (v &&& ~~~(stValid ||| stCrcErr ||| stEscWarn) == stDone && (v &&& stValid != 0 || v &&& stCrcErr != 0))

/-- A list is no longer than `RX_BODY_MAX`; every list is with `INF` (R9). -/
def fitsBody (max : Option Nat) (body : List Byte) : Prop :=
  match max with
  | some m => body.length ≤ m
  | none => True

/-- The invariants of R32, for a given `RX_BODY_MAX`. -/
structure Invariants (max : Option Nat) (s : State) : Prop where
  /-- No decode, or no marker yet: the buffer is empty. -/
  emptyBuffer : s.rxs = .idle ∨ s.rxs = .seeking → s.rxbuf = []
  /-- A frame is being received: its marker, then at most `RX_BODY_MAX` bytes that are neither marker nor terminator. -/
  accumulating : s.rxs = .accum →
    ∃ body, s.rxbuf = startMarker :: body ∧ fitsBody max body ∧ ∀ b ∈ body, b ≠ startMarker ∧ b ≠ terminator
  /-- During a decode there is no result. -/
  noResult : s.rxs ≠ .idle → s.rxst = 0x00 ∧ s.rxp = []
  /-- The reserved bits of `CTRL` are zero. -/
  ctrlReserved : s.ctrl &&& 0xFE = 0x00

/-- What `RXST` and `RXP` hold besides (R26, R27): a legal status, and no payload unless it was delivered. -/
structure StatusInvariants (s : State) : Prop where
  legal : legalStatus s.rxst = true
  delivered : s.rxst &&& stValid = 0x00 → s.rxp = []

/-- The registers of the block (R20). -/
inductive Reg where
  | crc | ctrl | rxs | rxbuf | rxp | rxst
  deriving DecidableEq, Repr

/-- Two states hold the same value in a register. -/
def Reg.same : Reg → State → State → Prop
  | .crc, s, t => s.crc = t.crc
  | .ctrl, s, t => s.ctrl = t.ctrl
  | .rxs, s, t => s.rxs = t.rxs
  | .rxbuf, s, t => s.rxbuf = t.rxbuf
  | .rxp, s, t => s.rxp = t.rxp
  | .rxst, s, t => s.rxst = t.rxst

/-- The registers a command reads: the R entries of R33's table. -/
def readsOf : Instr → List Reg
  | .nop => []
  | .crcClr => []
  | .crcFeed _ => [.crc]
  | .crcRead => [.crc]
  | .crcBlock _ => [.crc]
  | .crcCalc _ => []
  | .crcFcs _ => []
  | .crcCheck _ => []
  | .encEsc _ => []
  | .encStuff _ => []
  | .encFrame _ _ => []
  | .rxStart => []
  | .rxByte _ => [.ctrl, .rxs, .rxbuf]
  | .rxTimeout => [.rxs]
  | .rxEos => [.rxs]
  | .rxRead => [.rxs, .rxp, .rxst]
  | .rxDecode _ => [.ctrl]
  | .decUnstuff _ => []
  | .decBody _ => [.ctrl]
  | .numFields _ => []
  | .numMant _ => []
  | .numValue _ _ => []
  | .numSingle _ _ => []
  | .numMulti _ _ => []
  | .ctlWr _ => []
  | .ctlRd => [.ctrl]

/-- The registers a command may write: the W entries of R33's table. -/
def writesOf : Instr → List Reg
  | .nop => []
  | .crcClr => [.crc]
  | .crcFeed _ => [.crc]
  | .crcRead => []
  | .crcBlock _ => [.crc]
  | .crcCalc _ => [.crc]
  | .crcFcs _ => [.crc]
  | .crcCheck _ => [.crc]
  | .encEsc _ => []
  | .encStuff _ => []
  | .encFrame _ _ => []
  | .rxStart => [.rxs, .rxbuf, .rxp, .rxst]
  | .rxByte _ => [.rxs, .rxbuf, .rxp, .rxst]
  | .rxTimeout => [.rxs, .rxbuf, .rxp, .rxst]
  | .rxEos => [.rxs, .rxbuf, .rxp, .rxst]
  | .rxRead => []
  | .rxDecode _ => []
  | .decUnstuff _ => []
  | .decBody _ => []
  | .numFields _ => []
  | .numMant _ => []
  | .numValue _ _ => []
  | .numSingle _ _ => []
  | .numMulti _ _ => []
  | .ctlWr _ => [.ctrl]
  | .ctlRd => []

/-- R250's column "commands that raise it", for the assigned opcodes; every command may end with `OK`. -/
def mayRaise : Code → Instr → Bool
  | .ok, _ => true
  | .timeout, .rxTimeout => true
  | .framing, .rxEos => true
  | .framing, .rxDecode _ => true
  | .integrity, .rxByte _ => true
  | .integrity, .rxDecode _ => true
  | .integrity, .decBody _ => true
  | .protoMismatch, .numSingle _ _ => true
  | .protoMismatch, .numMulti _ _ => true
  | .truncated, .numSingle _ _ => true
  | .truncated, .numMulti _ _ => true
  | .invalidArg, .numMulti _ _ => true
  | .invalidArg, .numMant _ => true
  | .invalidArg, .numValue _ _ => true
  | .overflow, .rxByte _ => true
  | .overflow, .rxDecode _ => true
  | .badState, .rxByte _ => true
  | .badState, .rxTimeout => true
  | .badState, .rxEos => true
  | _, _ => false

/-- R252's column "raised by": the warnings a command may report. -/
def mayWarn : Instr → Warnings
  | .rxByte _ => wEsc ||| wCrc
  | .rxDecode _ => wEsc ||| wCrc
  | .decBody _ => wEsc ||| wCrc
  | .decUnstuff _ => wEsc
  | .numSingle _ _ => wUnit
  | .numMulti _ _ => wUnit
  | .nop | .crcClr | .crcFeed _ | .crcRead | .crcBlock _ | .crcCalc _ | .crcFcs _ | .crcCheck _ => 0
  | .encEsc _ | .encStuff _ | .encFrame _ _ => 0
  | .rxStart | .rxTimeout | .rxEos | .rxRead => 0
  | .numFields _ | .numMant _ | .numValue _ _ => 0
  | .ctlWr _ | .ctlRd => 0

/-- A command at given parameters (R9, 10_state.md R29): the four commands that read one, and every other as it is. The
block's own parameters are `blockConfig`. -/
def execWith (cfg : Config) : Instr → State → Result
  | .rxByte b, s => rxByte cfg.rxBodyMax b s
  | .rxDecode data, s => rxDecode cfg.rxBodyMax data s
  | .numSingle id payload, s => numSingle cfg id payload s
  | .numMulti ids payload, s => numMulti cfg ids payload s
  | other, s => exec other s

/-- Several commands at given parameters, one after another, each answered before the next (R7, R60). -/
def runCommands (cfg : Config) : List Instr → State → Result
  | [], s => .next s
  | i :: is, s =>
    match execWith cfg i s with
    | .next t => runCommands cfg is t
    | .fault f => .fault f
    | .refused r => .refused r

end Sys2Proof.Machine
end

