-- ==== Sys2Proof/Certificates/Slice0/Obligations.lean ====
section
/-! DEFINITION. The statements for the provers. Each docstring names the rule of spec/ it formalises. Where the spec names a
pure function (R14), the statement uses the model's function of that name; constants are written out as the rules print them.
`RX_BODY_MAX` and the open entries of `UnitTable` are constants nothing can be proved of, so every statement holds for
whatever they are. -/

open Sys2Proof Sys2Proof.Machine

/-! ## The command port -/

/-- R73, R77: a serialised well-formed command, whatever follows it, decodes to that command. -/
def Obligations.DecodeInvertsEncode : Prop :=
  ∀ (i : Instr) (rest : List Byte), i.wellFormed = true → decode (encode i ++ rest) = .command i rest

/-- R73, R77: what decodes to a command is that command's serialisation, and the command is well-formed. -/
def Obligations.EncodeInvertsDecode : Prop :=
  ∀ (bs : List Byte) (i : Instr) (rest : List Byte),
    decode bs = .command i rest → i.wellFormed = true ∧ bs = encode i ++ rest

/-- R73, R75: five commands laid out as bytes by hand, from R75's opcodes and R73's operand forms, decode to those commands. -/
def Obligations.WrittenOutCommandsDecode : Prop :=
  decode [0x12, 0x80, 0x00, 0x05, 0x3F, 0x10, 0x01, 0x00, 0x3C] =
      .command (.encFrame 0x80 [0x3F, 0x10, 0x01, 0x00, 0x3C]) [] ∧
    decode [0x07, 0x00, 0x07, 0x3F, 0x10, 0x01, 0x00, 0x3C, 0xB2, 0x5F] =
      .command (.crcCheck [0x3F, 0x10, 0x01, 0x00, 0x3C, 0xB2, 0x5F]) [] ∧
    decode [0x33, 0x00, 0x3D, 0x00, 0x01, 0x3F] = .command (.numSingle 0x003D [0x3F]) [] ∧
    decode [0x34, 0x02, 0x00, 0x3C, 0x00, 0x44, 0x00, 0x00, 0x41] = .command (.numMulti [0x003C, 0x0044] []) [0x41] ∧
    decode [0x21, 0x40, 0x24] = .command (.rxByte 0x40) [0x24]

/-- The 230 opcode bytes that R76 lists as unassigned. -/
def unassignedOpcode (op : Byte) : Prop :=
  (0x08 ≤ op ∧ op ≤ 0x0F) ∨ (0x13 ≤ op ∧ op ≤ 0x1F) ∨ (0x28 ≤ op ∧ op ≤ 0x2F) ∨ (0x35 ≤ op ∧ op ≤ 0x3F) ∨ 0x42 ≤ op

/-- R76: an unassigned opcode byte is the whole command, changes no state and answers `ILLEGAL_CMD` with no data; every other
opcode byte begins one of the 26 commands. That a step takes the byte off the command port and leaves the bytes after it
there, and that the reset input must be low, is the model's choice (log 1, log 4). -/
def Obligations.UnassignedOpcodeIsIllegalCommand : Prop :=
  (∀ (op : Byte) (s : State) (rest : List Byte), unassignedOpcode op → s.rst = false → s.cmd = op :: rest →
      step s = .next { s with cmd := rest, resp := some { code := .illegalCmd } }) ∧
    (∀ op : Byte, ¬ unassignedOpcode op → ∃ i : Instr, i.opcode = op)

/-- R77 and the model's choice of log 2: while the port holds only a proper part of a serialised command, a step issues
nothing: no register, no response and nothing on the port changes. -/
def Obligations.IncompleteCommandIssuesNothing : Prop :=
  ∀ (i : Instr) (part missing : List Byte) (s : State), i.wellFormed = true → encode i = part ++ missing →
    missing ≠ [] → s.rst = false → s.cmd = part → step s = .next s

/-- R77, and the model's choice of log 1 for the port: a step with the reset input low runs the first command on the port,
which it has taken off the port. -/
def Obligations.StepRunsTheDecodedCommand : Prop :=
  ∀ (s : State) (i : Instr) (rest : List Byte), s.rst = false → decode s.cmd = .command i rest →
    step s = exec i { s with cmd := rest }

/-- R280, R281, and the model's choice of log 4 for the two ports: the reset input puts every register at its reset value,
without an outcome. -/
def Obligations.ResetInputRestoresResetValues : Prop :=
  ∀ s : State, s.rst = true →
    step s = .next { crc := 0x0000, ctrl := 0x00, rxs := .idle, rxbuf := [], rxp := [], rxst := 0x00,
                     cmd := s.cmd, resp := none, rst := false }

/-! ## The whole machine -/

/-- R280: the state after reset, and that it satisfies the invariants of R32. -/
def Obligations.ResetStateIsAsListed : Prop :=
  State.reset.crc = 0x0000 ∧ State.reset.ctrl = 0x00 ∧ State.reset.rxs = .idle ∧ State.reset.rxbuf = [] ∧
    State.reset.rxp = [] ∧ State.reset.rxst = 0x00 ∧ Invariants blockConfig.rxBodyMax State.reset ∧
    StatusInvariants State.reset

/-- R32: the invariants every command preserves, over one step of the block from any state that meets them. Its clause that the
buffer begins with the marker in `ACCUM` holds after a restart too by the model's choice of R154's form (log 15). -/
def Obligations.StepKeepsInvariants : Prop :=
  ∀ s t : State, Invariants blockConfig.rxBodyMax s → step s = .next t → Invariants blockConfig.rxBodyMax t

/-- R26, R27: a step keeps `RXST` at a legal value, and keeps `RXP` empty unless a payload was delivered. -/
def Obligations.StepKeepsLegalStatus : Prop :=
  ∀ s t : State, StatusInvariants s → step s = .next t → StatusInvariants t

/-- R264, R74: every command goes on to a next state with exactly one response on the port; none leaves the block stuck. -/
def Obligations.EveryCommandAnswers : Prop :=
  ∀ (i : Instr) (s : State), ∃ (t : State) (r : Response),
    exec i s = .next t ∧ t.resp = some r ∧ t.cmd = s.cmd ∧ t.rst = s.rst

/-- R33, R30: a command changes only the registers its W entries name, and nothing with `BAD_STATE`; what it answers and
what it writes depend on nothing but the registers its R entries name. -/
def Obligations.CommandsRespectAccessMatrix : Prop :=
  (∀ (i : Instr) (s t : State) (q : Reg), exec i s = .next t → q ∉ writesOf i → q.same s t) ∧
    (∀ (i : Instr) (s t : State) (r : Response) (q : Reg), exec i s = .next t → t.resp = some r → r.code = .badState →
      q.same s t) ∧
    (∀ (i : Instr) (s₁ s₂ t₁ t₂ : State), (∀ q ∈ readsOf i, q.same s₁ s₂) → exec i s₁ = .next t₁ →
      exec i s₂ = .next t₂ → t₁.resp = t₂.resp ∧ ∀ q : Reg, q.same t₁ t₂ ∨ (q.same s₁ t₁ ∧ q.same s₂ t₂))

/-- R253: a command that answers `BAD_STATE`, `PROTO_MISMATCH`, `TRUNCATED` or `INVALID_ARG` changes no state. -/
def Obligations.RejectedCommandsChangeNothing : Prop :=
  ∀ (i : Instr) (s t : State) (r : Response), exec i s = .next t → t.resp = some r →
    r.code = .badState ∨ r.code = .protoMismatch ∨ r.code = .truncated ∨ r.code = .invalidArg →
    t = { s with resp := some r }

/-- R250, R252, R24: a command answers only with the codes and warnings whose rows name it, and `W_UNIT` comes only with
`OK`; the 4-bit numbers of the outcome codes, and the 2-bit encodings of `RXS`. -/
def Obligations.OutcomesComeFromTheirCommands : Prop :=
  (∀ (i : Instr) (s t : State) (r : Response), exec i s = .next t → t.resp = some r →
      mayRaise r.code i = true ∧ r.warn &&& ~~~ mayWarn i = 0 ∧ (r.warn &&& 4 ≠ 0 → r.code = .ok)) ∧
    (Code.ok.bits = 0x0 ∧ Code.timeout.bits = 0x1 ∧ Code.framing.bits = 0x2 ∧ Code.integrity.bits = 0x3 ∧
      Code.protoMismatch.bits = 0x4 ∧ Code.truncated.bits = 0x5 ∧ Code.invalidArg.bits = 0x6 ∧ Code.overflow.bits = 0x7 ∧
      Code.badState.bits = 0x8 ∧ Code.illegalCmd.bits = 0x9) ∧
    RxState.idle.code = 0 ∧ RxState.seeking.code = 1 ∧ RxState.accum.code = 2

/-- R57: the commands that change no state answer the same when issued again. -/
def Obligations.ReadersAreIdempotent : Prop :=
  ∀ (i : Instr) (s t : State), writesOf i = [] → exec i s = .next t →
    (∀ q : Reg, q.same s t) ∧ exec i t = .next t

/-! ## NOP and the control register -/

/-- R230: a byte `0x00` where an opcode is expected is one NOP, and a NOP changes nothing but the response. -/
def Obligations.NopDoesNothing : Prop :=
  encode .nop = [0x00] ∧ (∀ rest : List Byte, decode (0x00 :: rest) = .command .nop rest) ∧
    ∀ s : State, exec .nop s = .next { s with resp := some {} }

/-- R231, R23: bits 7:1 of the written value are ignored. -/
def Obligations.CtlWrWritesOnlyStrictCrc : Prop :=
  ∀ v : Byte, encode (.ctlWr v) = [0x40, v] ∧
    ∀ s : State, exec (.ctlWr v) s =
      .next { s with ctrl := v &&& 0x01, resp := some { ctrl := some (v &&& 0x01) } }

/-- R232, with bits 7:1 reading as zero in every state (R23, as log 8 reads it). -/
def Obligations.CtlRdReadsControl : Prop :=
  encode .ctlRd = [0x41] ∧
    ∀ s : State, exec .ctlRd s = .next { s with resp := some { ctrl := some (s.ctrl &&& 0x01) } }

/-! ## The CRC engine -/

/-- R113. -/
def Obligations.CrcClrClearsAccumulator : Prop :=
  encode .crcClr = [0x01] ∧ ∀ s : State, exec .crcClr s = .next { s with crc := 0x0000, resp := some {} }

/-- R114. -/
def Obligations.CrcFeedStepsAccumulator : Prop :=
  ∀ b : Byte, encode (.crcFeed b) = [0x02, b] ∧
    ∀ s : State, exec (.crcFeed b) s =
      .next { s with crc := crcStep8 s.crc b, resp := some { crc := some (crcStep8 s.crc b) } }

/-- R115. -/
def Obligations.CrcReadReportsAccumulator : Prop :=
  encode .crcRead = [0x03] ∧ ∀ s : State, exec .crcRead s = .next { s with resp := some { crc := some s.crc } }

/-- R116. -/
def Obligations.CrcBlockContinuesAccumulator : Prop :=
  ∀ data : List Byte, encode (.crcBlock data) = 0x04 :: (be16 (BitVec.ofNat 16 data.length) ++ data) ∧
    ∀ s : State, exec (.crcBlock data) s =
      .next { s with crc := crcFold s.crc data, resp := some { crc := some (crcFold s.crc data) } }

/-- R117. -/
def Obligations.CrcCalcComputesFromZero : Prop :=
  ∀ data : List Byte, encode (.crcCalc data) = 0x05 :: (be16 (BitVec.ofNat 16 data.length) ++ data) ∧
    ∀ s : State, exec (.crcCalc data) s =
      .next { s with crc := crcFold 0x0000 data, resp := some { crc := some (crcFold 0x0000 data) } }

/-- R118: the frame check sequence, and the corner case that the payload followed by the two bytes answered has CRC 0. -/
def Obligations.CrcFcsGivesCheckSequence : Prop :=
  ∀ p : List Byte, encode (.crcFcs p) = 0x06 :: (be16 (BitVec.ofNat 16 p.length) ++ p) ∧
    ∀ s : State, ∃ c : Word, c = crcFold 0x0000 (p ++ [0x00, 0x00]) ∧
      exec (.crcFcs p) s = .next { s with crc := c, resp := some { crc := some c, fcsbytes := some (be16 c) } } ∧
      crc16 (p ++ be16 c) = 0x0000

/-- R119. -/
def Obligations.CrcCheckTestsForZero : Prop :=
  ∀ data : List Byte, encode (.crcCheck data) = 0x07 :: (be16 (BitVec.ofNat 16 data.length) ++ data) ∧
    ∀ s : State, exec (.crcCheck data) s =
      .next { s with crc := crcFold 0x0000 data,
                     resp := some { crc := some (crcFold 0x0000 data),
                                    ok := some (decide (crcFold 0x0000 data = 0x0000)) } }

/-- The polynomial over GF(2) whose coefficients, from the highest power down, are the given bits (R110, R111). -/
noncomputable def gfPoly (bits : List Bool) : Polynomial (ZMod 2) :=
  bits.foldl (fun p b => p * Polynomial.X + (if b then 1 else 0)) 0

/-- `G(x) = x^16 + x^12 + x^5 + 1` (R110). -/
noncomputable def crcGenerator : Polynomial (ZMod 2) :=
  Polynomial.X ^ 16 + Polynomial.X ^ 12 + Polynomial.X ^ 5 + 1

/-- R110, R111: `crc16` is the remainder of the message, read as a polynomial, divided by `G(x)`; and it is zero exactly when
the message is a multiple of `G(x)`. -/
def Obligations.CrcIsPolynomialRemainder : Prop :=
  ∀ s : List Byte,
    gfPoly ((be16 (crc16 s)).flatMap msbFirst) = Polynomial.modByMonic (gfPoly (s.flatMap msbFirst)) crcGenerator ∧
      (crc16 s = 0x0000 ↔ crcGenerator ∣ gfPoly (s.flatMap msbFirst))

/-- R111's table entry `T[h] = crc_step8(h << 8, 0x00)`. -/
def crcTable (h : Byte) : Word := crcStep8 (h.zeroExtend 16 <<< 8) 0x00

/-- R111: the byte-parallel form, and the table entries the rule prints. -/
def Obligations.CrcByteParallelForm : Prop :=
  (∀ (r : Word) (b : Byte), crcStep8 r b = ((r <<< 8) ||| b.zeroExtend 16) ^^^ crcTable (r.extractLsb' 8 8)) ∧
    crcTable 0x00 = 0x0000 ∧ crcTable 0x01 = 0x1021 ∧ crcTable 0x02 = 0x2042 ∧ crcTable 0x80 = 0x9188 ∧
    crcTable 0xFF = 0x1EF0

/-- R111: short inputs, leading zeros and continuation. -/
def Obligations.CrcSequenceLaws : Prop :=
  crc16 [] = 0x0000 ∧ (∀ a : Byte, crc16 [a] = a.zeroExtend 16) ∧ (∀ a b : Byte, crc16 [a, b] = u16be a b) ∧
    (∀ s : List Byte, crc16 ([0x00] ++ s) = crc16 s) ∧ (∀ s t : List Byte, crcFold (crc16 s) t = crc16 (s ++ t))

/-- R112: the self-check property of the frame check sequence. -/
def Obligations.FrameCheckSequenceSelfChecks : Prop :=
  ∀ p : List Byte, fcs p = crc16 (p ++ [0x00, 0x00]) ∧ crc16 (p ++ be16 (fcs p)) = 0x0000

/-! ## The frame encoder -/

/-- R130's `esc`, written out. -/
def escapedByte (b : Byte) : List Byte := if b ∈ [0x06, 0x0D, 0x1B, 0x40, 0x80] then [0x1B, b ^^^ 0xFF] else [b]

/-- R132, R130: exactly the five bytes of the escape set are escaped. -/
def Obligations.EncEscEscapesTheFiveBytes : Prop :=
  ∀ b : Byte, encode (.encEsc b) = [0x10, b] ∧
    ∀ s : State, exec (.encEsc b) s = .next { s with resp := some { out := some (escapedByte b) } }

/-- R133, R131, with its length: each byte of the escape set adds one. -/
def Obligations.EncStuffEscapesEachByte : Prop :=
  ∀ data : List Byte, encode (.encStuff data) = 0x11 :: (be16 (BitVec.ofNat 16 data.length) ++ data) ∧
    (∀ s : State, exec (.encStuff data) s = .next { s with resp := some { out := some (data.flatMap escapedByte) } }) ∧
    (data.flatMap escapedByte).length = data.length + data.countP (fun b => b ∈ [0x06, 0x0D, 0x1B, 0x40, 0x80])

/-- R134, R131, R84: the address byte as it is, the escaped payload and FCS, the terminator; and the length of that frame. -/
def Obligations.EncFrameBuildsTheFrame : Prop :=
  ∀ (pfx : Byte) (p : List Byte), encode (.encFrame pfx p) = 0x12 :: pfx :: (be16 (BitVec.ofNat 16 p.length) ++ p) ∧
    ∃ f : List Byte, f = [pfx] ++ (p ++ be16 (crc16 (p ++ [0x00, 0x00]))).flatMap escapedByte ++ [0x0D] ∧
      (∀ s : State, exec (.encFrame pfx p) s = .next { s with resp := some { frame := some f } }) ∧
      f.length = 2 + (p.length + 2) +
        (p ++ be16 (crc16 (p ++ [0x00, 0x00]))).countP (fun b => b ∈ [0x06, 0x0D, 0x1B, 0x40, 0x80])

/-- R135: unescaping inverts escaping without a warning, and escaping is injective. -/
def Obligations.UnstuffInvertsStuff : Prop :=
  (∀ data : List Byte, unstuff (stuff data) = (data, false)) ∧ Function.Injective stuff

/-- R135: an escaped sequence holds no `0x06`, `0x0D`, `0x40` or `0x80`, and `0x1B` only as the first byte of a pair whose
second byte is outside the escape set; so a frame whose address byte is not `0x0D` has its only `0x0D` at its end. -/
def Obligations.StuffedBytesAreTransparent : Prop :=
  (∀ data : List Byte, ∀ b ∈ stuff data, b ≠ 0x06 ∧ b ≠ 0x0D ∧ b ≠ 0x40 ∧ b ≠ 0x80) ∧
    (∀ (data before after : List Byte), stuff data = before ++ 0x1B :: after →
      ∃ c rest, after = c :: rest ∧ c ≠ 0x1B ∧ inEscapeSet (c ^^^ 0xFF) = true) ∧
    (∀ (pfx : Byte) (p : List Byte), pfx ≠ 0x0D → 0x0D ∉ (frame pfx p).dropLast ∧ (frame pfx p).getLast? = some 0x0D)

/-! ## The receive path -/

/-- R155. -/
def Obligations.RxStartBeginsDecode : Prop :=
  encode .rxStart = [0x20] ∧
    ∀ s : State, exec .rxStart s =
      .next { s with rxs := .seeking, rxbuf := [], rxp := [], rxst := 0x00, resp := some {} }

/-- R156, R154, R161: one received byte, but for the terminator of a frame, whatever `RX_BODY_MAX` is. In `IDLE` nothing is
written; outside it the start marker begins a fresh buffer, a byte before the marker is discarded, a data byte is appended,
and a data byte that finds `RX_BODY_MAX` bytes after the marker ends the decode with `OVERFLOW`. That a marker in `ACCUM`
leaves it alone in the buffer is R154's word, taken over R166's by the model's choice (log 15). -/
def Obligations.RxByteFollowsStateMachine : Prop :=
  ∀ (cfg : Config) (b : Byte) (s : State), encode (.rxByte b) = [0x21, b] ∧
    exec (.rxByte b) s = execWith blockConfig (.rxByte b) s ∧
    (s.rxs = .idle → execWith cfg (.rxByte b) s = .next { s with resp := some { code := .badState } }) ∧
    (s.rxs ≠ .idle → b = 0x40 → execWith cfg (.rxByte b) s =
      .next { s with rxs := .accum, rxbuf := [0x40], resp := some { rxs := some .accum, done := some false } }) ∧
    (s.rxs = .seeking → b ≠ 0x40 → execWith cfg (.rxByte b) s =
      .next { s with rxbuf := [], resp := some { rxs := some .seeking, done := some false } }) ∧
    (∀ m : Nat, s.rxs = .accum → b ≠ 0x40 → b ≠ 0x0D → cfg.rxBodyMax = some m → s.rxbuf.length = m + 1 →
      execWith cfg (.rxByte b) s =
      .next { s with rxs := .idle, rxbuf := [], rxp := [], rxst := 0x40,
                     resp := some { code := .overflow, rxs := some .idle, done := some false } }) ∧
    (s.rxs = .accum → b ≠ 0x40 → b ≠ 0x0D → (∀ m : Nat, cfg.rxBodyMax = some m → s.rxbuf.length ≠ m + 1) →
      execWith cfg (.rxByte b) s =
      .next { s with rxbuf := s.rxbuf ++ [b], resp := some { rxs := some .accum, done := some false } })

/-- R158, R152, R153: the terminator completes the frame. With `u` the unescaped body and `w` its escape anomaly: a good CRC
delivers `u`; a bad one delivers it with `W_CRC` when `STRICT_CRC` is 0, and ends with `INTEGRITY` and no payload when it
is 1. -/
def Obligations.RxByteCompletesFrame : Prop :=
  ∀ (s : State) (u : List Byte) (w : Bool), s.rxs = .accum → unstuff (s.rxbuf.drop 1) = (u, w) →
    (crc16 u = 0x0000 → exec (.rxByte 0x0D) s =
      .next { s with rxs := .idle, rxbuf := [], rxp := u, rxst := if w then 0x23 else 0x03,
                     resp := some { warn := if w then 1 else 0, rxs := some .idle, done := some true } }) ∧
    (crc16 u ≠ 0x0000 → s.ctrl.getLsbD 0 = false → exec (.rxByte 0x0D) s =
      .next { s with rxs := .idle, rxbuf := [], rxp := u, rxst := if w then 0x33 else 0x13,
                     resp := some { warn := if w then 3 else 2, rxs := some .idle, done := some true } }) ∧
    (crc16 u ≠ 0x0000 → s.ctrl.getLsbD 0 = true → exec (.rxByte 0x0D) s =
      .next { s with rxs := .idle, rxbuf := [], rxp := [], rxst := if w then 0x31 else 0x11,
                     resp := some { code := .integrity, warn := if w then 3 else 2, rxs := some .idle,
                                    done := some true } })

/-- R159. -/
def Obligations.RxTimeoutEndsDecode : Prop :=
  encode .rxTimeout = [0x22] ∧
    (∀ s : State, s.rxs ≠ .idle → exec .rxTimeout s =
      .next { s with rxs := .idle, rxbuf := [], rxp := [], rxst := 0x04, resp := some { code := .timeout } }) ∧
    (∀ s : State, s.rxs = .idle → exec .rxTimeout s = .next { s with resp := some { code := .badState } })

/-- R160. -/
def Obligations.RxEosEndsDecode : Prop :=
  encode .rxEos = [0x23] ∧
    (∀ s : State, s.rxs ≠ .idle → exec .rxEos s =
      .next { s with rxs := .idle, rxbuf := [], rxp := [], rxst := 0x08, resp := some { code := .framing } }) ∧
    (∀ s : State, s.rxs = .idle → exec .rxEos s = .next { s with resp := some { code := .badState } })

/-- R162, with bit 7 of `RXST` reading 0 in every state (R27, as log 8 reads it). -/
def Obligations.RxReadReportsReceiver : Prop :=
  encode .rxRead = [0x24] ∧
    ∀ s : State, exec .rxRead s =
      .next { s with resp := some { rxs := some s.rxs, rxst := some (s.rxst &&& 0x7F), payload := some s.rxp } }

/-- R163: bytes before the first marker are skipped, the frame is the bytes from there to its terminator, and what follows is
not examined; whatever `RX_BODY_MAX` is, the body fitting it. The block's RX.DECODE is that at the block's parameters. -/
def Obligations.RxDecodeDeliversFirstFrame : Prop :=
  ∀ (cfg : Config) (garbage body after u : List Byte) (w : Bool) (s : State),
    (∀ b ∈ garbage, b ≠ 0x40) → (∀ b ∈ body, b ≠ 0x40 ∧ b ≠ 0x0D) → fitsBody cfg.rxBodyMax body →
    garbage.length + body.length + 2 ≤ 65535 → unstuff body = (u, w) →
    (∀ data : List Byte, exec (.rxDecode data) s = execWith blockConfig (.rxDecode data) s) ∧
    (crc16 u = 0x0000 → execWith cfg (.rxDecode (garbage ++ 0x40 :: body ++ 0x0D :: after)) s =
      .next { s with resp := some { warn := if w then 1 else 0, payload := some u, rxst := some (if w then 0x23 else 0x03),
                                    consumed := some (BitVec.ofNat 16 (garbage.length + body.length + 2)) } }) ∧
    (crc16 u ≠ 0x0000 → s.ctrl.getLsbD 0 = false →
      execWith cfg (.rxDecode (garbage ++ 0x40 :: body ++ 0x0D :: after)) s =
      .next { s with resp := some { warn := if w then 3 else 2, payload := some u, rxst := some (if w then 0x33 else 0x13),
                                    consumed := some (BitVec.ofNat 16 (garbage.length + body.length + 2)) } }) ∧
    (crc16 u ≠ 0x0000 → s.ctrl.getLsbD 0 = true →
      execWith cfg (.rxDecode (garbage ++ 0x40 :: body ++ 0x0D :: after)) s =
      .next { s with resp := some { code := .integrity, warn := if w then 3 else 2, payload := some [],
                                    rxst := some (if w then 0x31 else 0x11),
                                    consumed := some (BitVec.ofNat 16 (garbage.length + body.length + 2)) } })

/-- R163: a sequence with no start marker, or one whose frame has no terminator, ends with `FRAMING` and is used up. -/
def Obligations.RxDecodeWithoutFrameIsFraming : Prop :=
  (∀ (garbage : List Byte) (s : State), (∀ b ∈ garbage, b ≠ 0x40) → garbage.length ≤ 65535 →
    exec (.rxDecode garbage) s =
      .next { s with resp := some { code := .framing, payload := some [], rxst := some 0x08,
                                    consumed := some (BitVec.ofNat 16 garbage.length) } }) ∧
    ∀ (cfg : Config) (garbage body : List Byte) (s : State), (∀ b ∈ garbage, b ≠ 0x40) →
      (∀ b ∈ body, b ≠ 0x40 ∧ b ≠ 0x0D) → fitsBody cfg.rxBodyMax body → garbage.length + body.length + 1 ≤ 65535 →
      execWith cfg (.rxDecode (garbage ++ 0x40 :: body)) s =
        .next { s with resp := some { code := .framing, payload := some [], rxst := some 0x08,
                                      consumed := some (BitVec.ofNat 16 (garbage.length + body.length + 1)) } }

/-- D30, R163: RX.DECODE answers what RX.START, one RX.BYTE for each byte it consumed and, where it found no frame, RX.EOS
leave in the receive registers. -/
def Obligations.RxDecodeAgreesWithStreaming : Prop :=
  ∀ (cfg : Config) (data : List Byte) (s : State), data.length ≤ 65535 →
    encode (.rxDecode data) = 0x25 :: (be16 (BitVec.ofNat 16 data.length) ++ data) ∧
    exec (.rxDecode data) s = execWith blockConfig (.rxDecode data) s ∧
    ∃ (r : Response) (n : Word) (u : State),
      execWith cfg (.rxDecode data) s = .next { s with resp := some r } ∧ r.consumed = some n ∧ n.toNat ≤ data.length ∧
      runCommands cfg (.rxStart :: rxFeed (data.take n.toNat)) s = .next u ∧
      (r.code ≠ .framing → u.rxs = .idle ∧ r.payload = some u.rxp ∧ r.rxst = some u.rxst ∧
        ∃ q : Response, u.resp = some q ∧ q.code = r.code ∧ q.warn = r.warn) ∧
      (r.code = .framing → n.toNat = data.length ∧ u.rxs ≠ .idle ∧
        ∃ v : State, exec .rxEos u = .next v ∧ r.payload = some v.rxp ∧ r.rxst = some v.rxst ∧
          ∃ q : Response, v.resp = some q ∧ q.code = r.code ∧ q.warn = r.warn)

/-- R164, R150, R151: DEC.UNSTUFF answers the unescaper's scan, which is given unit by unit: a literal byte, a pair (reported
when it decodes outside the escape set), and a dangling introducer, dropped and reported: R150's branch, which U4 leaves a
model free not to take and which the model takes by choice (log 14). -/
def Obligations.DecUnstuffUnescapes : Prop :=
  (∀ data : List Byte, encode (.decUnstuff data) = 0x26 :: (be16 (BitVec.ofNat 16 data.length) ++ data) ∧
    ∀ s : State, exec (.decUnstuff data) s =
      .next { s with resp := some { warn := if (unstuff data).2 then 1 else 0, out := some (unstuff data).1 } }) ∧
    unstuff [] = ([], false) ∧ unstuff [0x1B] = ([], true) ∧
    (∀ (b : Byte) (rest : List Byte), b ≠ 0x1B →
      unstuff (b :: rest) = (b :: (unstuff rest).1, (unstuff rest).2)) ∧
    (∀ (c : Byte) (rest : List Byte),
      unstuff (0x1B :: c :: rest) =
        ((c ^^^ 0xFF) :: (unstuff rest).1,
          decide (c ^^^ 0xFF ∉ [0x06, 0x0D, 0x1B, 0x40, 0x80]) || (unstuff rest).2))

/-- R165, R152, R153. -/
def Obligations.DecBodyCompletesBody : Prop :=
  ∀ (body u : List Byte) (w : Bool) (s : State), unstuff body = (u, w) →
    encode (.decBody body) = 0x27 :: (be16 (BitVec.ofNat 16 body.length) ++ body) ∧
    (crc16 u = 0x0000 → exec (.decBody body) s =
      .next { s with resp := some { warn := if w then 1 else 0, payload := some u,
                                    rxst := some (if w then 0x23 else 0x03) } }) ∧
    (crc16 u ≠ 0x0000 → s.ctrl.getLsbD 0 = false → exec (.decBody body) s =
      .next { s with resp := some { warn := if w then 3 else 2, payload := some u,
                                    rxst := some (if w then 0x33 else 0x13) } }) ∧
    (crc16 u ≠ 0x0000 → s.ctrl.getLsbD 0 = true → exec (.decBody body) s =
      .next { s with resp := some { code := .integrity, warn := if w then 3 else 2, payload := some [],
                                    rxst := some (if w then 0x31 else 0x11) } })

/-- R157: from `SEEKING`, bytes that are no start marker change nothing of what any later bytes bring about. -/
def Obligations.GarbageBeforeMarkerIsDiscarded : Prop :=
  ∀ (cfg : Config) (garbage later : List Byte) (s : State), s.rxs = .seeking → s.rxbuf = [] →
    (∀ b ∈ garbage, b ≠ 0x40) → later ≠ [] →
    runCommands cfg (rxFeed (garbage ++ later)) s = runCommands cfg (rxFeed later) s

/-- R157: in `ACCUM`, a start marker makes the receiver forget everything it had received of the frame. -/
def Obligations.MarkerRestartsTheFrame : Prop :=
  ∀ (cfg : Config) (s : State) (older later : List Byte), s.rxs = .accum →
    runCommands cfg (rxFeed (0x40 :: later)) { s with rxbuf := older } = runCommands cfg (rxFeed (0x40 :: later)) s

/-- From `s`, the bytes `before` and then a frame with address byte `0x40` around the payload `p`, delivered one by one,
complete exactly one frame, at the frame's terminator: before that nothing is delivered and the decode goes on; there the
payload and its FCS are delivered with no warning. -/
def completesAtTerminator (cfg : Config) (s : State) (before p : List Byte) : Prop :=
  (∀ n < (before ++ frame 0x40 p).length, ∃ u : State,
    runCommands cfg (rxFeed ((before ++ frame 0x40 p).take n)) s = .next u ∧ u.rxs ≠ .idle ∧ u.rxp = [] ∧ u.rxst = 0x00) ∧
  runCommands cfg (rxFeed (before ++ frame 0x40 p)) s =
    .next { s with rxs := .idle, rxbuf := [], rxp := p ++ be16 (fcs p), rxst := 0x03,
                   resp := some { rxs := some .idle, done := some true } }

/-- R135 and R157's first two laws, under the limit of R161 (log 13) and under either policy: the receiver accepts a frame with
address byte `0x40` whose escaped body fits `RX_BODY_MAX`. From `SEEKING`, after bytes that hold no `0x40`; from `ACCUM`, after
bytes that hold no `0x0D`, what is buffered and they fitting; and from `SEEKING`, after garbage that holds a `0x40` and no
`0x0D` behind it, what follows its first `0x40` fitting. -/
def Obligations.ReceiverAcceptsEncodedFrame : Prop :=
  ∀ (cfg : Config) (p : List Byte) (s : State), s.rxst = 0x00 → s.rxp = [] →
    fitsBody cfg.rxBodyMax (stuff (p ++ be16 (fcs p))) →
    (∀ garbage : List Byte, s.rxs = .seeking → (∀ b ∈ garbage, b ≠ 0x40) → completesAtTerminator cfg s garbage p) ∧
    (∀ garbage : List Byte, s.rxs = .accum → (∀ b ∈ garbage, b ≠ 0x0D) →
      fitsBody cfg.rxBodyMax (s.rxbuf.drop 1 ++ garbage) → completesAtTerminator cfg s garbage p) ∧
    (∀ stray garbage : List Byte, s.rxs = .seeking → (∀ b ∈ stray, b ≠ 0x40) → (∀ b ∈ garbage, b ≠ 0x0D) →
      fitsBody cfg.rxBodyMax garbage → completesAtTerminator cfg s (stray ++ 0x40 :: garbage) p)

/-- R135, R83: a frame with another address byte completes nothing in a receiver that is seeking. -/
def Obligations.ForeignFrameCompletesNothing : Prop :=
  ∀ (cfg : Config) (pfx : Byte) (p : List Byte) (s : State), pfx ≠ 0x40 → s.rxs = .seeking →
    runCommands cfg (rxFeed (frame pfx p)) s =
      .next { s with rxbuf := [], resp := some { rxs := some .seeking, done := some false } }

/-- R153: with `STRICT_CRC = 1`, every payload that RX.BYTE delivers, and every payload that RX.DECODE or DEC.BODY answers,
has CRC 0. -/
def Obligations.StrictModeDeliversOnlyCheckedPayloads : Prop :=
  ∀ s t : State, s.ctrl.getLsbD 0 = true →
    (∀ b : Byte, s.rxs ≠ .idle → exec (.rxByte b) s = .next t → t.rxs = .idle → crc16 t.rxp = 0x0000) ∧
    (∀ (data p : List Byte) (r : Response), exec (.rxDecode data) s = .next t → t.resp = some r → r.payload = some p →
      crc16 p = 0x0000) ∧
    (∀ (body p : List Byte) (r : Response), exec (.decBody body) s = .next t → t.resp = some r → r.payload = some p →
      crc16 p = 0x0000)

/-! ## The numeric decoder -/

/-- R200, R190: the exponent byte's fields, sign and magnitude. -/
def Obligations.NumFieldsSplitsExponentByte : Prop :=
  ∀ e : Byte, encode (.numFields e) = [0x30, e] ∧
    ∀ s : State, exec (.numFields e) s =
      .next { s with resp := some { vneg := some (e.getLsbD 7), eneg := some (e.getLsbD 6),
                                    emag := some (BitVec.ofNat 6 (e.toNat % 64)),
                                    exp := some (if e.getLsbD 6 then -(e.toNat % 64 : Int) else (e.toNat % 64 : Int)) } }

/-- R201, R191: the mantissa is the number whose base-256 digits, the lowest first, are the bytes from the last to the first;
a mantissa of more than 255 bytes is an invalid argument. -/
def Obligations.NumMantBuildsBigEndianNumber : Prop :=
  ∀ m : List Byte, encode (.numMant m) = 0x31 :: (be16 (BitVec.ofNat 16 m.length) ++ m) ∧
    (∀ s : State, m.length ≤ 255 → exec (.numMant m) s =
      .next { s with resp := some { mant := some (Nat.ofDigits 256 (m.reverse.map BitVec.toNat)) } }) ∧
    (∀ s : State, 255 < m.length → exec (.numMant m) s = .next { s with resp := some { code := .invalidArg } })

/-- R202. -/
def Obligations.NumValueGivesTriple : Prop :=
  ∀ (e : Byte) (m : List Byte), encode (.numValue e m) = 0x32 :: e :: (be16 (BitVec.ofNat 16 m.length) ++ m) ∧
    (∀ s : State, m.length ≤ 255 → exec (.numValue e m) s =
      .next { s with resp := some { vneg := some (e.getLsbD 7), mant := some (mant m),
                                    exp := some (if e.getLsbD 6 then -(e.toNat % 64 : Int) else (e.toNat % 64 : Int)) } }) ∧
    (∀ s : State, 255 < m.length → exec (.numValue e m) s = .next { s with resp := some { code := .invalidArg } })

/-- R192, R193: what the triple denotes is the exact rational `(vneg = 1 ? -1 : 1) * mant * 10^exp`, and zero when the
mantissa is zero. -/
def Obligations.ValueIsExactRational : Prop :=
  ∀ (e : Byte) (m : List Byte),
    value e m = (if e.getLsbD 7 then -1 else 1) * (mant m : Rat) * (10 : Rat) ^ (fields e).exp ∧
      (mant m = 0 → value e m = 0)

/-- R203, R195, R87: the payload of R87's layout, read as the register it echoes, gives its record, with `W_UNIT` exactly when
the unit is unknown; read as any other register it gives `PROTO_MISMATCH` and no record. R9, R90: the units 1, 21 and 40 are
known, by the symbols given, so they warn of nothing, and every unit above 64 is unknown and warns. -/
def Obligations.NumSingleReadsResponse : Prop :=
  (unitTable 1 = some "Wh" ∧ unitTable 21 = some "kW" ∧ unitTable 40 = some "m3") ∧
  ∀ (id other : Word) (u e : Byte) (m extra : List Byte) (f₀ f₁ : Byte) (s : State), m.length ≤ 255 →
    (∀ p : List Byte, encode (.numSingle id p) = 0x33 :: (be16 id ++ be16 (BitVec.ofNat 16 p.length) ++ p)) ∧
    (∃ w : Warnings, w = (if unitTable u = none then 4 else 0) ∧ (u = 1 ∨ u = 21 ∨ u = 40 → w = 0) ∧
      (64 < u.toNat → w = 4) ∧
      exec (.numSingle id ([0x3F, 0x10] ++ be16 id ++ [u, BitVec.ofNat 8 m.length, e] ++ m ++ extra ++ [f₀, f₁])) s =
        .next { s with
          resp := some { warn := w,
                         recd := some { id := id, unit := u, mlen := BitVec.ofNat 8 m.length, vneg := e.getLsbD 7,
                                        mant := mant m, exp := (fields e).exp } } }) ∧
      (other ≠ id →
        exec (.numSingle other ([0x3F, 0x10] ++ be16 id ++ [u, BitVec.ofNat 8 m.length, e] ++ m ++ extra ++ [f₀, f₁])) s =
          .next { s with resp := some { code := .protoMismatch } })

/-- R195, R254: the order of the checks. A payload of fewer than 9 bytes is `TRUNCATED` whatever it holds; a full header that
does not echo destination and command is `PROTO_MISMATCH`; then one that echoes another register is `PROTO_MISMATCH`, however
short its mantissa; and one that echoes everything but is shorter than its declared mantissa is `TRUNCATED`. -/
def Obligations.NumSingleChecksInOrder : Prop :=
  (∀ (id : Word) (p : List Byte) (s : State), p.length < 9 →
      exec (.numSingle id p) s = .next { s with resp := some { code := .truncated } }) ∧
    (∀ (id : Word) (a b : Byte) (p : List Byte) (s : State), 7 ≤ p.length → a ≠ 0x3F ∨ b ≠ 0x10 →
      exec (.numSingle id (a :: b :: p)) s = .next { s with resp := some { code := .protoMismatch } }) ∧
    (∀ (id other : Word) (u l e : Byte) (m : List Byte) (f₀ f₁ : Byte) (s : State), other ≠ id →
      exec (.numSingle other ([0x3F, 0x10] ++ be16 id ++ [u, l, e] ++ m ++ [f₀, f₁])) s =
        .next { s with resp := some { code := .protoMismatch } }) ∧
    (∀ (id : Word) (u l e : Byte) (m : List Byte) (f₀ f₁ : Byte) (s : State), m.length < l.toNat →
      exec (.numSingle id ([0x3F, 0x10] ++ be16 id ++ [u, l, e] ++ m ++ [f₀, f₁])) s =
        .next { s with resp := some { code := .truncated } })

/-- R204, R196, R88: records back to back after one header, read as at most as many ids, give one record for each id in
order; `W_UNIT` exactly when one of their units is unknown; the rest is ignored. The records carry no register id:
`MULTI_REC_ID_BYTES` is 0 (log 7). -/
def Obligations.NumMultiReadsRecordsInOrder : Prop :=
  ∀ (ids : List Word) (rs : List WireRecord) (extra : List Byte) (f₀ f₁ : Byte) (s : State),
    1 ≤ ids.length → ids.length ≤ 255 → ids.length ≤ rs.length → (∀ r ∈ rs, r.mantissa.length ≤ 255) →
    (∀ p : List Byte, encode (.numMulti ids p) =
      0x34 :: BitVec.ofNat 8 ids.length :: (ids.flatMap be16 ++ be16 (BitVec.ofNat 16 p.length) ++ p)) ∧
    exec (.numMulti ids ([0x3F, 0x10] ++ rs.flatMap WireRecord.bytes ++ extra ++ [f₀, f₁])) s =
      .next { s with
        resp := some { warn := if ∃ r ∈ rs.take ids.length, unitTable r.unit = none then 4 else 0,
                       recs := some (List.zipWith (fun r id => r.result id) (rs.take ids.length) ids) } }

/-- R204, R196, R254: no ids or more than 255 are an invalid argument before anything else; then a payload without a header
is `TRUNCATED`, a wrong header `PROTO_MISMATCH`; and fewer whole records than ids, followed by nothing, by a record header cut
short or by a record whose mantissa is cut short, are `TRUNCATED` with no record. The records carry no register id:
`MULTI_REC_ID_BYTES` is 0 (log 7). -/
def Obligations.NumMultiFailsClosed : Prop :=
  (∀ (ids : List Word) (p : List Byte) (s : State), ids.length = 0 ∨ 255 < ids.length →
      exec (.numMulti ids p) s = .next { s with resp := some { code := .invalidArg } }) ∧
    (∀ (ids : List Word) (p : List Byte) (s : State), 1 ≤ ids.length → ids.length ≤ 255 → p.length < 4 →
      exec (.numMulti ids p) s = .next { s with resp := some { code := .truncated } }) ∧
    (∀ (ids : List Word) (a b : Byte) (p : List Byte) (s : State), 1 ≤ ids.length → ids.length ≤ 255 → 2 ≤ p.length →
      a ≠ 0x3F ∨ b ≠ 0x10 →
      exec (.numMulti ids (a :: b :: p)) s = .next { s with resp := some { code := .protoMismatch } }) ∧
    (∀ (ids : List Word) (rs : List WireRecord) (header : List Byte) (f₀ f₁ : Byte) (s : State),
      rs.length < ids.length → ids.length ≤ 255 → (∀ r ∈ rs, r.mantissa.length ≤ 255) → header.length < 3 →
      exec (.numMulti ids ([0x3F, 0x10] ++ rs.flatMap WireRecord.bytes ++ header ++ [f₀, f₁])) s =
        .next { s with resp := some { code := .truncated } }) ∧
    (∀ (ids : List Word) (rs : List WireRecord) (u l e : Byte) (m : List Byte) (f₀ f₁ : Byte) (s : State),
      rs.length < ids.length → ids.length ≤ 255 → (∀ r ∈ rs, r.mantissa.length ≤ 255) → m.length < l.toNat →
      exec (.numMulti ids ([0x3F, 0x10] ++ rs.flatMap WireRecord.bytes ++ ([u, l, e] ++ m) ++ [f₀, f₁])) s =
        .next { s with resp := some { code := .truncated } })

/-- R194, R198: the two FCS bytes of a payload never change what the record parsers answer. -/
def Obligations.NumericDecoderIgnoresFcs : Prop :=
  ∀ (d : List Byte) (a b a' b' : Byte) (s : State),
    (∀ id : Word, exec (.numSingle id (d ++ [a, b])) s = exec (.numSingle id (d ++ [a', b'])) s) ∧
      (∀ ids : List Word, exec (.numMulti ids (d ++ [a, b])) s = exec (.numMulti ids (d ++ [a', b'])) s)

/-- R135, R162, R203 together: a meter's framed single-register response, received byte by byte after garbage, is delivered,
read back by RX.READ, and decoded by NUM.SINGLE to its record, under either integrity policy. -/
def Obligations.MeterReadingReachesTheHost : Prop :=
  ∀ (cfg : Config) (garbage extra : List Byte) (id : Word) (r : WireRecord) (s : State), s.rxs = .seeking →
    (∀ b ∈ garbage, b ≠ 0x40) → r.mantissa.length ≤ 255 →
    fitsBody cfg.rxBodyMax (stuff (singleResponse id r extra)) →
    ∃ u v : State,
      runCommands cfg (rxFeed (garbage ++ frame 0x40 ([0x3F, 0x10] ++ be16 id ++ r.bytes ++ extra))) s = .next u ∧
      exec .rxRead u = .next v ∧
      v.resp = some { rxs := some .idle, rxst := some 0x03, payload := some (singleResponse id r extra) } ∧
      exec (.numSingle id (singleResponse id r extra)) v =
        .next { v with resp := some { warn := if unitTable r.unit = none then 4 else 0, recd := some (r.result id) } }
end

