-- ==== Sys2Proof/Laws/State.lean ====
section
/-! SUPPORT. What each update of the state leaves in each field: one lemma per field per update. -/

namespace Sys2Proof.Machine

@[simp] theorem State.setCrc_crc (s : State) (v : Word) : (s.setCrc v).crc = v := rfl
@[simp] theorem State.setCrc_ctrl (s : State) (v : Word) : (s.setCrc v).ctrl = s.ctrl := rfl
@[simp] theorem State.setCrc_rxs (s : State) (v : Word) : (s.setCrc v).rxs = s.rxs := rfl
@[simp] theorem State.setCrc_rxbuf (s : State) (v : Word) : (s.setCrc v).rxbuf = s.rxbuf := rfl
@[simp] theorem State.setCrc_rxp (s : State) (v : Word) : (s.setCrc v).rxp = s.rxp := rfl
@[simp] theorem State.setCrc_rxst (s : State) (v : Word) : (s.setCrc v).rxst = s.rxst := rfl
@[simp] theorem State.setCrc_cmd (s : State) (v : Word) : (s.setCrc v).cmd = s.cmd := rfl
@[simp] theorem State.setCrc_resp (s : State) (v : Word) : (s.setCrc v).resp = s.resp := rfl
@[simp] theorem State.setCrc_rst (s : State) (v : Word) : (s.setCrc v).rst = s.rst := rfl

@[simp] theorem State.setCtrl_crc (s : State) (v : Byte) : (s.setCtrl v).crc = s.crc := rfl
@[simp] theorem State.setCtrl_ctrl (s : State) (v : Byte) : (s.setCtrl v).ctrl = v := rfl
@[simp] theorem State.setCtrl_rxs (s : State) (v : Byte) : (s.setCtrl v).rxs = s.rxs := rfl
@[simp] theorem State.setCtrl_rxbuf (s : State) (v : Byte) : (s.setCtrl v).rxbuf = s.rxbuf := rfl
@[simp] theorem State.setCtrl_rxp (s : State) (v : Byte) : (s.setCtrl v).rxp = s.rxp := rfl
@[simp] theorem State.setCtrl_rxst (s : State) (v : Byte) : (s.setCtrl v).rxst = s.rxst := rfl
@[simp] theorem State.setCtrl_cmd (s : State) (v : Byte) : (s.setCtrl v).cmd = s.cmd := rfl
@[simp] theorem State.setCtrl_resp (s : State) (v : Byte) : (s.setCtrl v).resp = s.resp := rfl
@[simp] theorem State.setCtrl_rst (s : State) (v : Byte) : (s.setCtrl v).rst = s.rst := rfl

@[simp] theorem State.setRx_crc (s : State) (st : RxState) (buf : List Byte) : (s.setRx st buf).crc = s.crc := rfl
@[simp] theorem State.setRx_ctrl (s : State) (st : RxState) (buf : List Byte) : (s.setRx st buf).ctrl = s.ctrl := rfl
@[simp] theorem State.setRx_rxs (s : State) (st : RxState) (buf : List Byte) : (s.setRx st buf).rxs = st := rfl
@[simp] theorem State.setRx_rxbuf (s : State) (st : RxState) (buf : List Byte) : (s.setRx st buf).rxbuf = buf := rfl
@[simp] theorem State.setRx_rxp (s : State) (st : RxState) (buf : List Byte) : (s.setRx st buf).rxp = s.rxp := rfl
@[simp] theorem State.setRx_rxst (s : State) (st : RxState) (buf : List Byte) : (s.setRx st buf).rxst = s.rxst := rfl
@[simp] theorem State.setRx_cmd (s : State) (st : RxState) (buf : List Byte) : (s.setRx st buf).cmd = s.cmd := rfl
@[simp] theorem State.setRx_resp (s : State) (st : RxState) (buf : List Byte) : (s.setRx st buf).resp = s.resp := rfl
@[simp] theorem State.setRx_rst (s : State) (st : RxState) (buf : List Byte) : (s.setRx st buf).rst = s.rst := rfl

@[simp] theorem State.setResult_crc (s : State) (p : List Byte) (st : Byte) : (s.setResult p st).crc = s.crc := rfl
@[simp] theorem State.setResult_ctrl (s : State) (p : List Byte) (st : Byte) : (s.setResult p st).ctrl = s.ctrl := rfl
@[simp] theorem State.setResult_rxs (s : State) (p : List Byte) (st : Byte) : (s.setResult p st).rxs = s.rxs := rfl
@[simp] theorem State.setResult_rxbuf (s : State) (p : List Byte) (st : Byte) : (s.setResult p st).rxbuf = s.rxbuf := rfl
@[simp] theorem State.setResult_rxp (s : State) (p : List Byte) (st : Byte) : (s.setResult p st).rxp = p := rfl
@[simp] theorem State.setResult_rxst (s : State) (p : List Byte) (st : Byte) : (s.setResult p st).rxst = st := rfl
@[simp] theorem State.setResult_cmd (s : State) (p : List Byte) (st : Byte) : (s.setResult p st).cmd = s.cmd := rfl
@[simp] theorem State.setResult_resp (s : State) (p : List Byte) (st : Byte) : (s.setResult p st).resp = s.resp := rfl
@[simp] theorem State.setResult_rst (s : State) (p : List Byte) (st : Byte) : (s.setResult p st).rst = s.rst := rfl

@[simp] theorem State.setCmd_crc (s : State) (bs : List Byte) : (s.setCmd bs).crc = s.crc := rfl
@[simp] theorem State.setCmd_ctrl (s : State) (bs : List Byte) : (s.setCmd bs).ctrl = s.ctrl := rfl
@[simp] theorem State.setCmd_rxs (s : State) (bs : List Byte) : (s.setCmd bs).rxs = s.rxs := rfl
@[simp] theorem State.setCmd_rxbuf (s : State) (bs : List Byte) : (s.setCmd bs).rxbuf = s.rxbuf := rfl
@[simp] theorem State.setCmd_rxp (s : State) (bs : List Byte) : (s.setCmd bs).rxp = s.rxp := rfl
@[simp] theorem State.setCmd_rxst (s : State) (bs : List Byte) : (s.setCmd bs).rxst = s.rxst := rfl
@[simp] theorem State.setCmd_cmd (s : State) (bs : List Byte) : (s.setCmd bs).cmd = bs := rfl
@[simp] theorem State.setCmd_resp (s : State) (bs : List Byte) : (s.setCmd bs).resp = s.resp := rfl
@[simp] theorem State.setCmd_rst (s : State) (bs : List Byte) : (s.setCmd bs).rst = s.rst := rfl

@[simp] theorem State.setResp_crc (s : State) (r : Response) : (s.setResp r).crc = s.crc := rfl
@[simp] theorem State.setResp_ctrl (s : State) (r : Response) : (s.setResp r).ctrl = s.ctrl := rfl
@[simp] theorem State.setResp_rxs (s : State) (r : Response) : (s.setResp r).rxs = s.rxs := rfl
@[simp] theorem State.setResp_rxbuf (s : State) (r : Response) : (s.setResp r).rxbuf = s.rxbuf := rfl
@[simp] theorem State.setResp_rxp (s : State) (r : Response) : (s.setResp r).rxp = s.rxp := rfl
@[simp] theorem State.setResp_rxst (s : State) (r : Response) : (s.setResp r).rxst = s.rxst := rfl
@[simp] theorem State.setResp_cmd (s : State) (r : Response) : (s.setResp r).cmd = s.cmd := rfl
@[simp] theorem State.setResp_resp (s : State) (r : Response) : (s.setResp r).resp = some r := rfl
@[simp] theorem State.setResp_rst (s : State) (r : Response) : (s.setResp r).rst = s.rst := rfl

@[simp] theorem State.setRst_crc (s : State) (l : Bool) : (s.setRst l).crc = s.crc := rfl
@[simp] theorem State.setRst_ctrl (s : State) (l : Bool) : (s.setRst l).ctrl = s.ctrl := rfl
@[simp] theorem State.setRst_rxs (s : State) (l : Bool) : (s.setRst l).rxs = s.rxs := rfl
@[simp] theorem State.setRst_rxbuf (s : State) (l : Bool) : (s.setRst l).rxbuf = s.rxbuf := rfl
@[simp] theorem State.setRst_rxp (s : State) (l : Bool) : (s.setRst l).rxp = s.rxp := rfl
@[simp] theorem State.setRst_rxst (s : State) (l : Bool) : (s.setRst l).rxst = s.rxst := rfl
@[simp] theorem State.setRst_cmd (s : State) (l : Bool) : (s.setRst l).cmd = s.cmd := rfl
@[simp] theorem State.setRst_resp (s : State) (l : Bool) : (s.setRst l).resp = s.resp := rfl
@[simp] theorem State.setRst_rst (s : State) (l : Bool) : (s.setRst l).rst = l := rfl

@[simp] theorem State.reset_crc : State.reset.crc = 0 := rfl
@[simp] theorem State.reset_ctrl : State.reset.ctrl = 0 := rfl
@[simp] theorem State.reset_rxs : State.reset.rxs = .idle := rfl
@[simp] theorem State.reset_rxbuf : State.reset.rxbuf = [] := rfl
@[simp] theorem State.reset_rxp : State.reset.rxp = [] := rfl
@[simp] theorem State.reset_rxst : State.reset.rxst = 0 := rfl
@[simp] theorem State.reset_cmd : State.reset.cmd = [] := rfl
@[simp] theorem State.reset_resp : State.reset.resp = none := rfl
@[simp] theorem State.reset_rst : State.reset.rst = false := rfl

end Sys2Proof.Machine
end

