-- ==== Sys2Proof/Laws/Ops.lean ====
section
/-! SUPPORT. What the shared operations of Machine/Ops.lean do, said once. -/

namespace Sys2Proof.Machine

@[simp] theorem reply_eq (r : Response) (s : State) : reply r s = .next (s.setResp r) := rfl

@[simp] theorem raise_eq (c : Code) (r : Response) (s : State) : raise c r s = .next (s.setResp { r with code := c }) := rfl

/-- A command that ends without `raise` goes on, and only its response has been added to the state. -/
theorem reply_inv {r : Response} {s t : State} (h : reply r s = .next t) : t = s.setResp r := by
  simpa using h.symm

/-- `raise` goes on too: the writes made before it stand, the response carries the code. -/
theorem raise_inv {c : Code} {r : Response} {s t : State} (h : raise c r s = .next t) :
    t = s.setResp { r with code := c } := by
  simpa using h.symm

@[simp] theorem illegalCommand_eq (s : State) : illegalCommand s = .next (s.setResp { code := .illegalCmd }) := rfl

@[simp] theorem State.endDecode_eq (s : State) (p : List Byte) (st : Byte) :
    s.endDecode p st = (s.setRx .idle []).setResult p st := rfl

@[simp] theorem State.writeCtrl_eq (s : State) (v : Byte) : s.writeCtrl v = s.setCtrl (v &&& 0x01) := rfl

@[simp] theorem State.strict_setRx (s : State) (st : RxState) (buf : List Byte) : (s.setRx st buf).strict = s.strict := rfl

@[simp] theorem State.strict_setResult (s : State) (p : List Byte) (st : Byte) : (s.setResult p st).strict = s.strict := rfl

@[simp] theorem State.strict_setCrc (s : State) (v : Word) : (s.setCrc v).strict = s.strict := rfl

@[simp] theorem State.strict_setResp (s : State) (r : Response) : (s.setResp r).strict = s.strict := rfl

/-- What `CTRL` reads is bit 0 of what it holds (R23). -/
@[simp] theorem State.readCtrl_setCtrl (s : State) (v : Byte) : (s.setCtrl v).readCtrl = v &&& 0x01 := rfl

/-- Masking the reserved bits twice is masking them once (R23). -/
@[simp] theorem ctrlMask_idem (v : Byte) : v &&& 0x01#8 &&& 0x01#8 = v &&& 0x01#8 := by
  rw [BitVec.and_assoc, BitVec.and_self]

/-- The flag is bit 0 of what `CTRL` holds (R23). -/
@[simp] theorem State.strict_setCtrl (s : State) (v : Byte) : (s.setCtrl v).strict = v.getLsbD 0 := rfl

/-- The flag after a write of `CTRL` is bit 0 of what was written (R231). -/
theorem State.strict_writeCtrl (s : State) (v : Byte) : (s.writeCtrl v).strict = v.getLsbD 0 := by
  simp [BitVec.getLsbD]

@[simp] theorem State.applyReset_eq (s : State) : s.applyReset = State.reset.setCmd s.cmd := rfl

theorem unitTable_one : unitTable 1 = some "Wh" := by simp [unitTable]

theorem unitTable_twentyOne : unitTable 21 = some "kW" := by simp [unitTable]

theorem unitTable_forty : unitTable 40 = some "m3" := by simp [unitTable]

/-- Codes above 64 are unknown (R9). -/
theorem unitTable_above (u : Byte) (h : 64 < u.toNat) : unitTable u = none := by
  have h1 : u ≠ 1 := by rintro rfl; simp at h
  have h21 : u ≠ 21 := by rintro rfl; simp at h
  have h40 : u ≠ 40 := by rintro rfl; simp at h
  rw [unitTable, if_neg h1, if_neg h21, if_neg h40, if_pos h]

end Sys2Proof.Machine
end

