-- ==== Sys2Proof/Laws/Crc.lean ====
section
/-! SUPPORT. Small facts of the CRC engine and the escaper (40_crc.md R110, 41_frame_encode.md R130, R131). -/

namespace Sys2Proof.Machine

@[simp] theorem crcFold_nil (r : Word) : crcFold r [] = r := rfl

@[simp] theorem crcFold_cons (r : Word) (b : Byte) (s : List Byte) : crcFold r (b :: s) = crcFold (crcStep8 r b) s := rfl

@[simp] theorem crcFold_append (r : Word) (s t : List Byte) : crcFold r (s ++ t) = crcFold (crcFold r s) t := by
  simp [crcFold]

@[simp] theorem stuff_nil : stuff [] = [] := rfl

@[simp] theorem stuff_cons (b : Byte) (s : List Byte) : stuff (b :: s) = esc b ++ stuff s := rfl

@[simp] theorem stuff_append (s t : List Byte) : stuff (s ++ t) = stuff s ++ stuff t := by
  simp [stuff]

/-- The two forms of an escaped byte (R130). -/
theorem esc_cases (b : Byte) :
    (inEscapeSet b = true ∧ esc b = [escIntro, b ^^^ 0xFF]) ∨ (inEscapeSet b = false ∧ esc b = [b]) := by
  cases h : inEscapeSet b <;> simp [esc, h]

end Sys2Proof.Machine
end

