-- ==== Sys2Proof/Laws/Operands.lean ====
section
/-! SUPPORT. What the operand readers do on what the operand writers produce (30_encoding.md R73). -/

namespace Sys2Proof.Machine

@[simp] theorem be16_length (v : Word) : (be16 v).length = 2 := rfl

/-- Big-endian bytes read back (20_memory.md R52). -/
@[simp] theorem u16be_be16 (v : Word) : u16be (v.extractLsb' 8 8) (v.extractLsb' 0 8) = v := by
  apply BitVec.eq_of_toNat_eq
  simp only [u16be, BitVec.toNat_append, BitVec.extractLsb'_toNat]
  rw [Nat.shiftLeft_eq, Nat.shiftRight_eq_div_pow, Nat.shiftRight_eq_div_pow, ← Nat.shiftLeft_eq,
    ← Nat.shiftLeft_add_eq_or_of_lt (by omega), Nat.shiftLeft_eq]
  omega

/-- The two bytes of a big-endian value are the bytes it was read from (R52). -/
@[simp] theorem be16_u16be (a b : Byte) : be16 (u16be a b) = [a, b] := by
  have high : (u16be a b).extractLsb' 8 8 = a := by
    apply BitVec.eq_of_getLsbD_eq
    intro i h
    simp only [u16be, BitVec.getLsbD_extractLsb', BitVec.getLsbD_append]
    simp [h]
  have low : (u16be a b).extractLsb' 0 8 = b := by
    apply BitVec.eq_of_getLsbD_eq
    intro i h
    simp only [u16be, BitVec.getLsbD_extractLsb', BitVec.getLsbD_append]
    simp [h]
  simp [be16, high, low]

@[simp] theorem takeB8_cons (b : Byte) (rest : List Byte) : takeB8 (b :: rest) = some (b, rest) := rfl

@[simp] theorem takeU16_be16 (v : Word) (rest : List Byte) : takeU16 (be16 v ++ rest) = some (v, rest) := by
  simp [be16, takeU16]

@[simp] theorem takeExact_append (s rest : List Byte) : takeExact s.length (s ++ rest) = some (s, rest) := by
  induction s with
  | nil => rfl
  | cons b s ih => simp [takeExact, ih]

/-- A `seq` operand whose length fits reads back (R72, R73). -/
theorem takeSeq_putSeq (s rest : List Byte) (h : s.length ≤ seqMax) : takeSeq (putSeq s ++ rest) = some (s, rest) := by
  have hl : (BitVec.ofNat 16 s.length).toNat = s.length := by
    simp only [BitVec.toNat_ofNat]; exact Nat.mod_eq_of_lt (by simp [seqMax] at h; omega)
  simp [takeSeq, putSeq, hl]

@[simp] theorem takeIds_flatMap (ids : List Word) (rest : List Byte) :
    takeIds ids.length (ids.flatMap be16 ++ rest) = some (ids, rest) := by
  induction ids with
  | nil => rfl
  | cons id ids ih => simp [takeIds, ih]

/-- An `idseq` operand whose count fits reads back (R72, R73). -/
theorem takeIdSeq_putIdSeq (ids : List Word) (rest : List Byte) (h : ids.length ≤ idSeqMax) :
    takeIdSeq (putIdSeq ids ++ rest) = some (ids, rest) := by
  have hl : (BitVec.ofNat 8 ids.length).toNat = ids.length := by
    simp only [BitVec.toNat_ofNat]; exact Nat.mod_eq_of_lt (by simp [idSeqMax] at h; omega)
  simp [takeIdSeq, putIdSeq, hl]

/-- What `takeExact` can answer: the bytes it took and the rest make up what it was given. -/
theorem takeExact_inv {n : Nat} {bs s rest : List Byte} (h : takeExact n bs = some (s, rest)) :
    bs = s ++ rest ∧ s.length = n := by
  induction n generalizing bs s with
  | zero => simp [takeExact] at h; obtain ⟨rfl, rfl⟩ := h; simp
  | succ n ih =>
    cases bs with
    | nil => simp [takeExact] at h
    | cons b bs =>
      simp only [takeExact, Option.map_eq_some_iff, Prod.mk.injEq] at h
      obtain ⟨⟨s', rest'⟩, h1, rfl, rfl⟩ := h
      obtain ⟨rfl, rfl⟩ := ih h1
      simp

end Sys2Proof.Machine
end

