-- ==== Sys2Proof/Laws/Decode.lean ====
section
/-! SUPPORT. The decoder, opcode by opcode, and what reading operands can answer (30_encoding.md R73, R75, R76). -/

namespace Sys2Proof

open Sys2Proof.Machine

@[simp] theorem Decoded.ofOperands_some {α : Type} (mk : α → Instr) (a : α) (rest : List Byte) :
    Decoded.ofOperands mk (some (a, rest)) = Decoded.command (mk a) rest := rfl

@[simp] theorem Decoded.ofOperands_none {α : Type} (mk : α → Instr) : Decoded.ofOperands mk none = .incomplete := rfl

/-- Operands that cannot be read make a command incomplete, never illegal (R77). -/
@[simp] theorem Decoded.ofOperands_ne_illegal {α : Type} (mk : α → Instr) (o : Option (α × List Byte)) (op : Byte)
    (rest : List Byte) : Decoded.ofOperands mk o ≠ .illegal op rest := by
  rcases o with _ | ⟨a, r⟩ <;> simp

/-- A command read from operands is made of what was read. -/
theorem Decoded.ofOperands_inv {α : Type} {mk : α → Instr} {o : Option (α × List Byte)} {i : Instr} {rest : List Byte}
    (h : Decoded.ofOperands mk o = Decoded.command i rest) : ∃ a, o = some (a, rest) ∧ i = mk a := by
  rcases o with _ | ⟨a, r⟩
  · simp at h
  · simp at h; exact ⟨a, by rw [h.2], h.1.symm⟩

/-- Two operands are read one after the other (R70). -/
theorem takeBoth_inv {α β : Type} {f : List Byte → Option (α × List Byte)} {g : List Byte → Option (β × List Byte)}
    {bs rest : List Byte} {a : α} {b : β} (h : takeBoth f g bs = some ((a, b), rest)) :
    ∃ mid, f bs = some (a, mid) ∧ g mid = some (b, rest) := by
  simp only [takeBoth, Option.bind_eq_some_iff, Option.map_eq_some_iff] at h
  obtain ⟨⟨a', mid⟩, hf, ⟨b', r⟩, hg, he⟩ := h
  simp only [Prod.mk.injEq] at he
  obtain ⟨⟨rfl, rfl⟩, rfl⟩ := he
  exact ⟨mid, hf, hg⟩

theorem takeBoth_some {α β : Type} {f : List Byte → Option (α × List Byte)} {g : List Byte → Option (β × List Byte)}
    {bs mid rest : List Byte} {a : α} {b : β} (hf : f bs = some (a, mid)) (hg : g mid = some (b, rest)) :
    takeBoth f g bs = some ((a, b), rest) := by
  simp [takeBoth, hf, hg]

@[simp] theorem decode_nil : decode [] = .incomplete := rfl

@[simp] theorem decode_nop (bs : List Byte) : decode (0x00#8 :: bs) = Decoded.command .nop bs := rfl
@[simp] theorem decode_crcClr (bs : List Byte) : decode (0x01#8 :: bs) = Decoded.command .crcClr bs := rfl
@[simp] theorem decode_crcFeed (bs : List Byte) : decode (0x02#8 :: bs) = Decoded.ofOperands .crcFeed (takeB8 bs) := rfl
@[simp] theorem decode_crcRead (bs : List Byte) : decode (0x03#8 :: bs) = Decoded.command .crcRead bs := rfl
@[simp] theorem decode_crcBlock (bs : List Byte) : decode (0x04#8 :: bs) = Decoded.ofOperands .crcBlock (takeSeq bs) := rfl
@[simp] theorem decode_crcCalc (bs : List Byte) : decode (0x05#8 :: bs) = Decoded.ofOperands .crcCalc (takeSeq bs) := rfl
@[simp] theorem decode_crcFcs (bs : List Byte) : decode (0x06#8 :: bs) = Decoded.ofOperands .crcFcs (takeSeq bs) := rfl
@[simp] theorem decode_crcCheck (bs : List Byte) : decode (0x07#8 :: bs) = Decoded.ofOperands .crcCheck (takeSeq bs) := rfl
@[simp] theorem decode_encEsc (bs : List Byte) : decode (0x10#8 :: bs) = Decoded.ofOperands .encEsc (takeB8 bs) := rfl
@[simp] theorem decode_encStuff (bs : List Byte) : decode (0x11#8 :: bs) = Decoded.ofOperands .encStuff (takeSeq bs) := rfl
@[simp] theorem decode_encFrame (bs : List Byte) : decode (0x12#8 :: bs) = Decoded.ofOperands (fun p => .encFrame p.1 p.2) (takeBoth takeB8 takeSeq bs) := rfl
@[simp] theorem decode_rxStart (bs : List Byte) : decode (0x20#8 :: bs) = Decoded.command .rxStart bs := rfl
@[simp] theorem decode_rxByte (bs : List Byte) : decode (0x21#8 :: bs) = Decoded.ofOperands .rxByte (takeB8 bs) := rfl
@[simp] theorem decode_rxTimeout (bs : List Byte) : decode (0x22#8 :: bs) = Decoded.command .rxTimeout bs := rfl
@[simp] theorem decode_rxEos (bs : List Byte) : decode (0x23#8 :: bs) = Decoded.command .rxEos bs := rfl
@[simp] theorem decode_rxRead (bs : List Byte) : decode (0x24#8 :: bs) = Decoded.command .rxRead bs := rfl
@[simp] theorem decode_rxDecode (bs : List Byte) : decode (0x25#8 :: bs) = Decoded.ofOperands .rxDecode (takeSeq bs) := rfl
@[simp] theorem decode_decUnstuff (bs : List Byte) : decode (0x26#8 :: bs) = Decoded.ofOperands .decUnstuff (takeSeq bs) := rfl
@[simp] theorem decode_decBody (bs : List Byte) : decode (0x27#8 :: bs) = Decoded.ofOperands .decBody (takeSeq bs) := rfl
@[simp] theorem decode_numFields (bs : List Byte) : decode (0x30#8 :: bs) = Decoded.ofOperands .numFields (takeB8 bs) := rfl
@[simp] theorem decode_numMant (bs : List Byte) : decode (0x31#8 :: bs) = Decoded.ofOperands .numMant (takeSeq bs) := rfl
@[simp] theorem decode_numValue (bs : List Byte) : decode (0x32#8 :: bs) = Decoded.ofOperands (fun p => .numValue p.1 p.2) (takeBoth takeB8 takeSeq bs) := rfl
@[simp] theorem decode_numSingle (bs : List Byte) : decode (0x33#8 :: bs) = Decoded.ofOperands (fun p => .numSingle p.1 p.2) (takeBoth takeU16 takeSeq bs) := rfl
@[simp] theorem decode_numMulti (bs : List Byte) : decode (0x34#8 :: bs) = Decoded.ofOperands (fun p => .numMulti p.1 p.2) (takeBoth takeIdSeq takeSeq bs) := rfl
@[simp] theorem decode_ctlWr (bs : List Byte) : decode (0x40#8 :: bs) = Decoded.ofOperands .ctlWr (takeB8 bs) := rfl
@[simp] theorem decode_ctlRd (bs : List Byte) : decode (0x41#8 :: bs) = Decoded.command .ctlRd bs := rfl

end Sys2Proof
end

