-- ==== Sys2Proof/Laws/Numeric.lean ====
section
/-! SUPPORT. What the numeric decoder's shared operations do, said once (43_numeric_decode.md R190 to R196). -/

namespace Sys2Proof.Machine

/-- The data region of what ends in two FCS bytes is what stands before them (R194). -/
@[simp] theorem dregion_append (d : List Byte) (a b : Byte) : dregion (d ++ [a, b]) = d := by
  simp [dregion]

/-- NUM.SINGLE always goes on; a failure adds only its code (R203, R253). -/
theorem numSingle_eq (cfg : Config) (id : Word) (p : List Byte) (s : State) :
    numSingle cfg id p s = .next (s.setResp
      (match decodeSingle cfg p id with
        | .ok (warn, r) => { warn := warn, recd := some r }
        | .error c => { code := c })) := by
  unfold numSingle
  cases decodeSingle cfg p id <;> rfl

/-- NUM.MULTI always goes on; a failure adds only its code (R204, R253). -/
theorem numMulti_eq (cfg : Config) (ids : List Word) (p : List Byte) (s : State) :
    numMulti cfg ids p s = .next (s.setResp
      (match decodeMulti cfg p ids with
        | .ok (warn, rs) => { warn := warn, recs := some rs }
        | .error c => { code := c })) := by
  unfold numMulti
  cases decodeMulti cfg p ids <;> rfl

/-- The failures of a single-register decode (R195, R250). -/
theorem decodeSingle_error {cfg : Config} {p : List Byte} {id : Word} {c : Code}
    (h : decodeSingle cfg p id = .error c) : c = .protoMismatch ∨ c = .truncated := by
  unfold decodeSingle at h
  split at h
  · split_ifs at h <;> simp_all
  · simp_all

/-- The failures of a multi-register decode (R196, R250). -/
theorem decodeMulti_error {cfg : Config} {p : List Byte} {ids : List Word} {c : Code}
    (h : decodeMulti cfg p ids = .error c) : c = .invalidArg ∨ c = .protoMismatch ∨ c = .truncated := by
  unfold decodeMulti at h
  split at h
  · simp_all
  · split at h
    · split at h
      · simp_all
      · split at h <;> simp_all
    · simp_all

@[simp] theorem mant_nil : mant [] = 0 := rfl

/-- One more byte, at the low end (R191). -/
theorem mant_append_singleton (m : List Byte) (b : Byte) : mant (m ++ [b]) = 256 * mant m + b.toNat := by
  simp [mant]

end Sys2Proof.Machine
end

