-- ==== Sys2Proof/Laws/PerInstr.lean ====
section
/-! SUPPORT. A fact of every command as syntax: its serialised form begins with its opcode byte, and the decoder knows that
byte as the opcode of a command (30_encoding.md R70, R73, R75). -/

namespace Sys2Proof.Laws.OpcodeAssigned

def Statement (i : Instr) : Prop :=
  (encode i).head? = some i.opcode ∧ ∀ rest op, decode (i.opcode :: rest) ≠ .illegal op rest

theorem nop : Statement .nop :=
  ⟨rfl, fun rest op => by simp [Instr.opcode]⟩

theorem crcClr : Statement .crcClr :=
  ⟨rfl, fun rest op => by simp [Instr.opcode]⟩

theorem crcFeed (b : Byte) : Statement (.crcFeed b) :=
  ⟨rfl, fun rest op => by simp [Instr.opcode]⟩

theorem crcRead : Statement .crcRead :=
  ⟨rfl, fun rest op => by simp [Instr.opcode]⟩

theorem crcBlock (data : List Byte) : Statement (.crcBlock data) :=
  ⟨rfl, fun rest op => by simp [Instr.opcode]⟩

theorem crcCalc (data : List Byte) : Statement (.crcCalc data) :=
  ⟨rfl, fun rest op => by simp [Instr.opcode]⟩

theorem crcFcs (payload : List Byte) : Statement (.crcFcs payload) :=
  ⟨rfl, fun rest op => by simp [Instr.opcode]⟩

theorem crcCheck (data : List Byte) : Statement (.crcCheck data) :=
  ⟨rfl, fun rest op => by simp [Instr.opcode]⟩

theorem encEsc (b : Byte) : Statement (.encEsc b) :=
  ⟨rfl, fun rest op => by simp [Instr.opcode]⟩

theorem encStuff (data : List Byte) : Statement (.encStuff data) :=
  ⟨rfl, fun rest op => by simp [Instr.opcode]⟩

theorem encFrame (pfx : Byte) (payload : List Byte) : Statement (.encFrame pfx payload) :=
  ⟨rfl, fun rest op => by simp [Instr.opcode]⟩

theorem rxStart : Statement .rxStart :=
  ⟨rfl, fun rest op => by simp [Instr.opcode]⟩

theorem rxByte (b : Byte) : Statement (.rxByte b) :=
  ⟨rfl, fun rest op => by simp [Instr.opcode]⟩

theorem rxTimeout : Statement .rxTimeout :=
  ⟨rfl, fun rest op => by simp [Instr.opcode]⟩

theorem rxEos : Statement .rxEos :=
  ⟨rfl, fun rest op => by simp [Instr.opcode]⟩

theorem rxRead : Statement .rxRead :=
  ⟨rfl, fun rest op => by simp [Instr.opcode]⟩

theorem rxDecode (data : List Byte) : Statement (.rxDecode data) :=
  ⟨rfl, fun rest op => by simp [Instr.opcode]⟩

theorem decUnstuff (data : List Byte) : Statement (.decUnstuff data) :=
  ⟨rfl, fun rest op => by simp [Instr.opcode]⟩

theorem decBody (body : List Byte) : Statement (.decBody body) :=
  ⟨rfl, fun rest op => by simp [Instr.opcode]⟩

theorem numFields (e : Byte) : Statement (.numFields e) :=
  ⟨rfl, fun rest op => by simp [Instr.opcode]⟩

theorem numMant (m : List Byte) : Statement (.numMant m) :=
  ⟨rfl, fun rest op => by simp [Instr.opcode]⟩

theorem numValue (e : Byte) (m : List Byte) : Statement (.numValue e m) :=
  ⟨rfl, fun rest op => by simp [Instr.opcode]⟩

theorem numSingle (id : Word) (payload : List Byte) : Statement (.numSingle id payload) :=
  ⟨rfl, fun rest op => by simp [Instr.opcode]⟩

theorem numMulti (ids : List Word) (payload : List Byte) : Statement (.numMulti ids payload) :=
  ⟨rfl, fun rest op => by simp [Instr.opcode]⟩

theorem ctlWr (v : Byte) : Statement (.ctlWr v) :=
  ⟨rfl, fun rest op => by simp [Instr.opcode]⟩

theorem ctlRd : Statement .ctlRd :=
  ⟨rfl, fun rest op => by simp [Instr.opcode]⟩

end Sys2Proof.Laws.OpcodeAssigned
end

