-- ==== Sys2Proof/Laws/Receive.lean ====
section
/-! SUPPORT. What the receive path's shared operations can do, said once (42_frame_decode.md R150 to R163). -/

namespace Sys2Proof.Machine

@[simp] theorem unstuff_nil : unstuff [] = ([], false) := rfl

/-- A byte that is no introducer passes unchanged (R150). -/
theorem unstuff_literal (b : Byte) (rest : List Byte) (h : b ≠ escIntro) :
    unstuff (b :: rest) = (b :: (unstuff rest).1, (unstuff rest).2) := by
  rw [unstuff.eq_def]; simp [h]

/-- A pair decodes to its second byte inverted, with a warning outside the escape set (R150, R151). -/
theorem unstuff_pair (c : Byte) (rest : List Byte) :
    unstuff (escIntro :: c :: rest) =
      ((c ^^^ 0xFF) :: (unstuff rest).1, (unstuff rest).2 || !inEscapeSet (c ^^^ 0xFF)) := by
  rw [unstuff.eq_def]; simp

/-- A dangling introducer is dropped with a warning (R150, R85). -/
theorem unstuff_dangling : unstuff [escIntro] = ([], true) := by
  rw [unstuff.eq_def]; simp

/-- The two ways a frame completes (R152, R153): delivered with `OK`, or, with the flag set and a bad CRC, not at all. -/
theorem complete_cases (body : List Byte) (strict : Bool) :
    ((strict = true → crc16 (unstuff body).1 = 0) ∧ (complete body strict).code = .ok ∧
      (complete body strict).payload = (unstuff body).1 ∧
      (complete body strict).rxst =
        completionStatus true (crc16 (unstuff body).1 != 0) (unstuff body).2) ∨
    (strict = true ∧ crc16 (unstuff body).1 ≠ 0 ∧ (complete body strict).code = .integrity ∧
      (complete body strict).payload = [] ∧
      (complete body strict).rxst = completionStatus false true (unstuff body).2) := by
  have hne : (crc16 (unstuff body).1 != 0#16) = !decide (crc16 (unstuff body).1 = 0#16) := rfl
  cases strict <;> by_cases h : crc16 (unstuff body).1 = 0#16 <;> simp [complete, hne, h]

/-- The warnings of a completed frame do not depend on the policy (R153). -/
theorem complete_warn (body : List Byte) (strict : Bool) :
    (complete body strict).warn = completionWarnings (crc16 (unstuff body).1 != 0) (unstuff body).2 := rfl

/-- Everything one received byte can do outside `IDLE` (R154). -/
theorem rxStep_cases (max : Option Nat) (st : RxState) (buf : List Byte) (b : Byte) (h : st ≠ .idle) :
    (b = startMarker ∧ rxStep max st buf b = (.accum, [startMarker], .none)) ∨
    (st = .seeking ∧ b ≠ startMarker ∧ rxStep max st buf b = (.seeking, [], .none)) ∨
    (st = .accum ∧ b = terminator ∧ rxStep max st buf b = (.idle, [], .frame (buf.drop 1))) ∨
    (st = .accum ∧ b ≠ startMarker ∧ b ≠ terminator ∧ bodyFull max buf = true ∧
      rxStep max st buf b = (.idle, [], .overflow)) ∨
    (st = .accum ∧ b ≠ startMarker ∧ b ≠ terminator ∧ bodyFull max buf = false ∧
      rxStep max st buf b = (.accum, buf ++ [b], .none)) := by
  cases st with
  | idle => exact absurd rfl h
  | seeking => by_cases hm : b = startMarker <;> simp [rxStep, hm]
  | accum =>
    by_cases hm : b = startMarker
    · exact .inl ⟨hm, by simp [rxStep, hm]⟩
    · by_cases ht : b = terminator
      · subst ht
        exact .inr (.inr (.inl ⟨rfl, rfl, by simp [rxStep, startMarker, terminator]⟩))
      · cases hf : bodyFull max buf <;> simp [rxStep, hm, ht, hf]

/-- The completion step always goes on, writing the result and answering with the completion's code (R158). -/
theorem finishFrame_eq (body : List Byte) (s : State) :
    finishFrame body s =
      .next ((s.setResult (complete body s.strict).payload (complete body s.strict).rxst).setResp
        { code := (complete body s.strict).code, warn := (complete body s.strict).warn, rxs := some s.rxs,
          done := some true }) := by
  unfold finishFrame
  by_cases h : (complete body s.strict).code = .ok <;> simp [h]

@[simp] theorem overflowFrame_eq (s : State) :
    overflowFrame s =
      .next ((s.setResult [] stOverflow).setResp { code := .overflow, rxs := some s.rxs, done := some false }) := rfl

theorem rxByte_idle (max : Option Nat) (b : Byte) (s : State) (h : s.rxs = .idle) :
    rxByte max b s = .next (s.setResp { code := .badState }) := by
  simp [rxByte, h]

/-- Everything RX.BYTE can do (R156): refuse in `IDLE`, go on with the frame, complete it, or overflow. -/
theorem rxByte_cases {max : Option Nat} {b : Byte} {s t : State} (h : rxByte max b s = .next t) :
    (s.rxs = .idle ∧ t = s.setResp { code := .badState }) ∨
    (s.rxs ≠ .idle ∧ ∃ st buf, rxStep max s.rxs s.rxbuf b = (st, buf, .none) ∧
      t = (s.setRx st buf).setResp { rxs := some st, done := some false }) ∨
    (s.rxs ≠ .idle ∧ ∃ st buf body, rxStep max s.rxs s.rxbuf b = (st, buf, .frame body) ∧
      t = (((s.setRx st buf).setResult (complete body s.strict).payload (complete body s.strict).rxst).setResp
        { code := (complete body s.strict).code, warn := (complete body s.strict).warn, rxs := some st,
          done := some true })) ∨
    (s.rxs ≠ .idle ∧ ∃ st buf, rxStep max s.rxs s.rxbuf b = (st, buf, .overflow) ∧
      t = (((s.setRx st buf).setResult [] stOverflow).setResp
        { code := .overflow, rxs := some st, done := some false })) := by
  by_cases hi : s.rxs = .idle
  · rw [rxByte_idle _ _ _ hi] at h
    exact .inl ⟨hi, by simpa using h.symm⟩
  · obtain ⟨st, buf, ev, hs⟩ : ∃ st buf ev, rxStep max s.rxs s.rxbuf b = (st, buf, ev) := ⟨_, _, _, rfl⟩
    cases ev <;> simp [rxByte, hi, hs, finishFrame_eq] at h <;> simp [hi, hs, ← h]

/-- RX.DECODE always goes on: only its response is added (R163). -/
theorem rxDecode_eq (max : Option Nat) (data : List Byte) (s : State) :
    rxDecode max data s = .next (s.setResp (decodeLoop max s.strict .seeking [] 0 data)) := by
  unfold rxDecode
  by_cases h : (decodeLoop max s.strict .seeking [] 0 data).code = .ok <;> simp [h]

theorem execDecBody_eq (body : List Byte) (s : State) :
    execDecBody body s = .next (s.setResp
      { code := (complete body s.strict).code, warn := (complete body s.strict).warn,
        payload := some (complete body s.strict).payload, rxst := some (complete body s.strict).rxst }) := by
  unfold execDecBody
  by_cases h : (complete body s.strict).code = .ok <;> simp [h]

end Sys2Proof.Machine
end

