-- ==== Sys2Proof/Laws/Step.lean ====
section
/-! SUPPORT. Everything one step can be (00_scope.md R7, 30_encoding.md R76, R77, 70_reset_and_hazards.md R281). -/

namespace Sys2Proof.Machine

/-- The four ways a step goes on: a reset, a command, an illegal opcode, or waiting. -/
theorem step_cases {s t : State} (h : step s = .next t) :
    (s.rst = true ∧ t = State.reset.setCmd s.cmd) ∨
    (s.rst = false ∧ ∃ i rest, decode s.cmd = .command i rest ∧ exec i (s.setCmd rest) = .next t) ∨
    (s.rst = false ∧ ∃ op rest, decode s.cmd = .illegal op rest ∧
      t = (s.setCmd rest).setResp { code := .illegalCmd }) ∨
    (s.rst = false ∧ decode s.cmd = .incomplete ∧ t = s) := by
  unfold step at h
  cases hr : s.rst with
  | true =>
    rw [if_pos hr] at h
    exact .inl ⟨rfl, by simpa using h.symm⟩
  | false =>
    rw [if_neg (by simp [hr])] at h
    cases hd : decode s.cmd with
    | command i rest => rw [hd] at h; exact .inr (.inl ⟨rfl, i, rest, rfl, h⟩)
    | illegal op rest => rw [hd] at h; exact .inr (.inr (.inl ⟨rfl, op, rest, rfl, by simpa using h.symm⟩))
    | incomplete => rw [hd] at h; exact .inr (.inr (.inr ⟨rfl, rfl, by simpa using h.symm⟩))

end Sys2Proof.Machine
end

