-- ==== Sys2Proof/Tests/Slice0.lean ====
section
/-! SUPPORT. Tests. Expected results are those of spec/95_test_vectors.md, or read off the encoding tables of
spec/30_encoding.md; the last part shows, for every statement with hypotheses, values that meet them together. -/

open Sys2Proof Sys2Proof.Machine

namespace Sys2Proof.Tests

/-! ## Helpers -/

/-- The response of a command that went on. -/
def answer : Result → Option Response
  | .next t => t.resp
  | .fault _ => none
  | .refused _ => none

/-- The state a command leaves, its response port emptied. -/
def after : Result → Option State
  | .next t => some { t with resp := none }
  | .fault _ => none
  | .refused _ => none

/-- A parameter set like the one of spec/95_test_vectors.md. -/
def testConfig (max : Option Nat) : Config where
  rxBodyMax := max
  unitTable u := if u = 1 ∨ u = 21 ∨ u = 40 then some "known" else none
  multiRecIdBytes := 0

/-- The payload of the meter reading of spec/95_test_vectors.md, S4 and N-S1. -/
def reading : List Byte := [0x3F, 0x10, 0x00, 0x3C, 0x28, 0x04, 0x43, 0x00, 0x01, 0xE2, 0x40, 0xBA, 0xED]

/-- Its frame body, escaped. -/
def readingBody : List Byte := [0x3F, 0x10, 0x00, 0x3C, 0x28, 0x04, 0x43, 0x00, 0x01, 0xE2, 0x1B, 0xBF, 0xBA, 0xED]

/-- Its record, N-S1. -/
def readingRecord : Record := { id := 0x003C, unit := 40, mlen := 4, vneg := false, mant := 123456, exp := -3 }

/-- A receiver in the given state, everything else as after reset. -/
def receiving (st : RxState) (buf : List Byte) (ctrl : Byte) : State :=
  { State.reset with rxs := st, rxbuf := buf, ctrl := ctrl }

/-- A bad frame body `[01]` (its CRC is 0001). -/
def badBody : List Byte := [0x01]

/-! ## Well-formedness refuses what R72 does not allow -/

def longSeq : List Byte := List.replicate 65536 0x00

theorem test_longSeq_length : longSeq.length = 65536 := List.length_replicate
theorem test_wellFormed_crcBlock : (Instr.crcBlock longSeq).wellFormed = false := by
  simp [Instr.wellFormed, seqFits, seqMax, test_longSeq_length]
theorem test_wellFormed_crcCalc : (Instr.crcCalc longSeq).wellFormed = false := by
  simp [Instr.wellFormed, seqFits, seqMax, test_longSeq_length]
theorem test_wellFormed_crcFcs : (Instr.crcFcs longSeq).wellFormed = false := by
  simp [Instr.wellFormed, seqFits, seqMax, test_longSeq_length]
theorem test_wellFormed_crcCheck : (Instr.crcCheck longSeq).wellFormed = false := by
  simp [Instr.wellFormed, seqFits, seqMax, test_longSeq_length]
theorem test_wellFormed_encStuff : (Instr.encStuff longSeq).wellFormed = false := by
  simp [Instr.wellFormed, seqFits, seqMax, test_longSeq_length]
theorem test_wellFormed_encFrame : (Instr.encFrame 0x80 longSeq).wellFormed = false := by
  simp [Instr.wellFormed, seqFits, seqMax, test_longSeq_length]
theorem test_wellFormed_rxDecode : (Instr.rxDecode longSeq).wellFormed = false := by
  simp [Instr.wellFormed, seqFits, seqMax, test_longSeq_length]
theorem test_wellFormed_decUnstuff : (Instr.decUnstuff longSeq).wellFormed = false := by
  simp [Instr.wellFormed, seqFits, seqMax, test_longSeq_length]
theorem test_wellFormed_decBody : (Instr.decBody longSeq).wellFormed = false := by
  simp [Instr.wellFormed, seqFits, seqMax, test_longSeq_length]
theorem test_wellFormed_numMant : (Instr.numMant longSeq).wellFormed = false := by
  simp [Instr.wellFormed, seqFits, seqMax, test_longSeq_length]
theorem test_wellFormed_numValue : (Instr.numValue 0x02 longSeq).wellFormed = false := by
  simp [Instr.wellFormed, seqFits, seqMax, test_longSeq_length]
theorem test_wellFormed_numSingle : (Instr.numSingle 0x003C longSeq).wellFormed = false := by
  simp [Instr.wellFormed, seqFits, seqMax, test_longSeq_length]
theorem test_wellFormed_numMulti_payload : (Instr.numMulti [0x003C] longSeq).wellFormed = false := by
  simp [Instr.wellFormed, seqFits, seqMax, test_longSeq_length]
theorem test_wellFormed_numMulti_ids : (Instr.numMulti (List.replicate 256 0x003C) []).wellFormed = false := by decide +kernel
theorem test_wellFormed_numMulti_most_ids : (Instr.numMulti (List.replicate 255 0x003C) []).wellFormed = true := by decide +kernel
theorem test_wellFormed_longest_seq : (Instr.crcBlock (List.replicate 65535 0x00)).wellFormed = true := by
  simp only [Instr.wellFormed, seqFits, seqMax, List.length_replicate]
  rfl

/-! ## Every constructor's decoding, its bytes written out from R73 and R75 -/

theorem test_decode_nop : decode [0x00, 0xAA] = .command .nop [0xAA] := by decide
theorem test_decode_crcClr : decode [0x01] = .command .crcClr [] := by decide
theorem test_decode_crcFeed : decode [0x02, 0x3F] = .command (.crcFeed 0x3F) [] := by decide
theorem test_decode_crcRead : decode [0x03] = .command .crcRead [] := by decide
theorem test_decode_crcBlock :
    decode [0x04, 0x00, 0x05, 0x01, 0x00, 0x3C, 0x00, 0x00] = .command (.crcBlock [0x01, 0x00, 0x3C, 0x00, 0x00]) [] := by
  decide
theorem test_decode_crcCalc : decode [0x05, 0x00, 0x02, 0x31, 0x32, 0x33] = .command (.crcCalc [0x31, 0x32]) [0x33] := by
  decide
theorem test_decode_crcFcs : decode [0x06, 0x00, 0x00, 0x06] = .command (.crcFcs []) [0x06] := by decide
theorem test_decode_crcCheck : decode [0x07, 0x00, 0x01, 0xFF] = .command (.crcCheck [0xFF]) [] := by decide
theorem test_decode_encEsc : decode [0x10, 0x0D] = .command (.encEsc 0x0D) [] := by decide
theorem test_decode_encStuff : decode [0x11, 0x00, 0x02, 0x06, 0x0D] = .command (.encStuff [0x06, 0x0D]) [] := by decide
theorem test_decode_encFrame :
    decode [0x12, 0x80, 0x00, 0x05, 0x3F, 0x10, 0x01, 0x00, 0x3C] =
      .command (.encFrame 0x80 [0x3F, 0x10, 0x01, 0x00, 0x3C]) [] := by decide
theorem test_decode_rxStart : decode [0x20, 0x21] = .command .rxStart [0x21] := by decide
theorem test_decode_rxByte : decode [0x21, 0x40] = .command (.rxByte 0x40) [] := by decide
theorem test_decode_rxTimeout : decode [0x22] = .command .rxTimeout [] := by decide
theorem test_decode_rxEos : decode [0x23] = .command .rxEos [] := by decide
theorem test_decode_rxRead : decode [0x24] = .command .rxRead [] := by decide
theorem test_decode_rxDecode : decode [0x25, 0x00, 0x02, 0x40, 0x3F] = .command (.rxDecode [0x40, 0x3F]) [] := by decide
theorem test_decode_decUnstuff : decode [0x26, 0x00, 0x02, 0x1B, 0x00] = .command (.decUnstuff [0x1B, 0x00]) [] := by decide
theorem test_decode_decBody : decode [0x27, 0x00, 0x01, 0x01] = .command (.decBody [0x01]) [] := by decide
theorem test_decode_numFields : decode [0x30, 0xFF] = .command (.numFields 0xFF) [] := by decide
theorem test_decode_numMant : decode [0x31, 0x00, 0x02, 0x12, 0x34] = .command (.numMant [0x12, 0x34]) [] := by decide
theorem test_decode_numValue : decode [0x32, 0x82, 0x00, 0x02, 0x01, 0x02] = .command (.numValue 0x82 [0x01, 0x02]) [] := by
  decide
theorem test_decode_numSingle : decode [0x33, 0x00, 0x3D, 0x00, 0x01, 0x3F] = .command (.numSingle 0x003D [0x3F]) [] := by
  decide
theorem test_decode_numMulti :
    decode [0x34, 0x02, 0x00, 0x3C, 0x00, 0x44, 0x00, 0x01, 0x3F] = .command (.numMulti [0x003C, 0x0044] [0x3F]) [] := by
  decide
theorem test_decode_ctlWr : decode [0x40, 0xFE] = .command (.ctlWr 0xFE) [] := by decide
theorem test_decode_ctlRd : decode [0x41] = .command .ctlRd [] := by decide
/-- A length of more than one byte is read big-endian. -/
theorem test_decode_length_byte_order : decode [0x05, 0x01, 0x00, 0x31] = .incomplete := by decide
/-- The unassigned opcodes at the ends of R76's ranges. -/
theorem test_decode_illegal :
    [0x08, 0x0F, 0x13, 0x1F, 0x28, 0x2F, 0x35, 0x3F, 0x42, 0xFF].all
      (fun op : Byte => decide (decode [op, 0x41] = .illegal op [0x41])) = true := by decide

/-! ## The opcode table's numbers -/

theorem test_table_word_crcFeed : decodeTableWord 16 0x5602 = some (.crcFeed 0x56) := by decide +kernel
theorem test_table_word_illegal : decodeTableWord 8 0x08 = none := by decide
theorem test_fetch_word_crcFeed :
    answer (step (State.reset.withFetchWord 16 0x5602)) = some { crc := some 0x0056 } := by decide +kernel
theorem test_fetch_word_numMulti :
    answer (step (State.reset.withFetchWord 8 0x34)) = some { code := .invalidArg } := by decide +kernel

/-! ## One step of each command (spec/95_test_vectors.md) -/

theorem test_nop : after (exec .nop { State.reset with crc := 0xBEEF }) = some { State.reset with crc := 0xBEEF } := by decide
theorem test_crcClr : after (exec .crcClr { State.reset with crc := 0xBEEF }) = some State.reset := by decide
theorem test_crcFeed :
    answer (exec (.crcFeed 0x56) { State.reset with crc := 0x1234 }) = some { crc := some 0x0625 } := by decide
theorem test_crcRead : answer (exec .crcRead { State.reset with crc := 0x0625 }) = some { crc := some 0x0625 } := by decide
theorem test_crcBlock :
    (after (exec (.crcBlock [0x01, 0x00, 0x3C, 0x00, 0x00]) { State.reset with crc := 0x3F10 })).map State.crc =
      some 0xB25F := by decide +kernel
theorem test_crcCalc :
    answer (exec (.crcCalc [0x31, 0x32, 0x33, 0x34, 0x35, 0x36, 0x37, 0x38, 0x39]) { State.reset with crc := 0xABCD }) =
      some { crc := some 0xBEEF } := by decide +kernel
theorem test_crcFcs :
    answer (exec (.crcFcs [0x3F, 0x10, 0x01, 0x00, 0x3C]) State.reset) =
      some { crc := some 0xB25F, fcsbytes := some [0xB2, 0x5F] } := by decide +kernel
theorem test_crcCheck_good :
    answer (exec (.crcCheck [0x3F, 0x10, 0x01, 0x00, 0x3C, 0xB2, 0x5F]) State.reset) =
      some { crc := some 0x0000, ok := some true } := by decide +kernel
theorem test_crcCheck_bad :
    answer (exec (.crcCheck [0x3F, 0x10, 0x01, 0x00, 0x3C, 0xB3, 0x5F]) State.reset) =
      some { crc := some 0x0100, ok := some false } := by decide +kernel
theorem test_encEsc_set : answer (exec (.encEsc 0x1B) State.reset) = some { out := some [0x1B, 0xE4] } := by decide
theorem test_encEsc_literal : answer (exec (.encEsc 0x41) State.reset) = some { out := some [0x41] } := by decide
theorem test_encStuff :
    answer (exec (.encStuff [0x06, 0x0D, 0x1B, 0x40, 0x80, 0x00, 0xFF]) State.reset) =
      some { out := some [0x1B, 0xF9, 0x1B, 0xF2, 0x1B, 0xE4, 0x1B, 0xBF, 0x1B, 0x7F, 0x00, 0xFF] } := by decide
theorem test_encFrame :
    answer (exec (.encFrame 0x80 [0x3F, 0x10, 0x02, 0x00, 0x3C, 0x00, 0x44]) State.reset) =
      some { frame := some [0x80, 0x3F, 0x10, 0x02, 0x00, 0x3C, 0x00, 0x44, 0x35, 0xE7, 0x0D] } := by decide +kernel
theorem test_rxStart :
    after (exec .rxStart (receiving .accum [0x40, 0x3F] 0x01)) = some (receiving .seeking [] 0x01) := by decide
theorem test_rxByte_restart :
    after (exec (.rxByte 0x40) (receiving .accum [0x40, 0x3F, 0x10] 0x00)) = some (receiving .accum [0x40] 0x00) := by decide
theorem test_rxByte_overflow :
    after (execWith (testConfig (some 2)) (.rxByte 0x03) (receiving .accum [0x40, 0x01, 0x02] 0x00)) =
      some { State.reset with rxst := 0x40 } := by decide
theorem test_rxTimeout :
    after (exec .rxTimeout (receiving .accum [0x40, 0x3F, 0x10] 0x00)) = some { State.reset with rxst := 0x04 } := by decide
theorem test_rxTimeout_idle : answer (exec .rxTimeout State.reset) = some { code := .badState } := by decide
theorem test_rxEos :
    after (exec .rxEos (receiving .seeking [] 0x00)) = some { State.reset with rxst := 0x08 } := by decide
theorem test_rxEos_idle : answer (exec .rxEos State.reset) = some { code := .badState } := by decide
theorem test_rxRead :
    answer (exec .rxRead (receiving .accum [0x40, 0x01] 0x00)) =
      some { rxs := some .accum, rxst := some 0x00, payload := some [] } := by decide
theorem test_rxDecode_empty :
    answer (exec (.rxDecode []) State.reset) =
      some { code := .framing, payload := some [], rxst := some 0x08, consumed := some 0 } := by decide
theorem test_rxDecode_reading :
    answer (execWith (testConfig none) (.rxDecode (0x40 :: 0x11 :: 0x22 :: 0x40 :: readingBody ++ [0x0D])) State.reset) =
      some { payload := some reading, rxst := some 0x03, consumed := some 19 } := by decide +kernel
theorem test_decUnstuff :
    answer (exec (.decUnstuff [0x1B, 0x00]) State.reset) = some { warn := 1, out := some [0xFF] } := by decide
theorem test_decUnstuff_dangling :
    answer (exec (.decUnstuff [0x41, 0x1B]) State.reset) = some { warn := 1, out := some [0x41] } := by decide
theorem test_decBody_lenient :
    answer (exec (.decBody [0x3F, 0x10, 0x01, 0x3C, 0x28, 0x04, 0x43, 0x00, 0x01, 0xE2, 0x1B, 0xBF, 0xBA, 0xED]) State.reset) =
      some { warn := 2, rxst := some 0x13,
             payload := some [0x3F, 0x10, 0x01, 0x3C, 0x28, 0x04, 0x43, 0x00, 0x01, 0xE2, 0x40, 0xBA, 0xED] } := by decide +kernel
theorem test_decBody_strict :
    answer (exec (.decBody badBody) (receiving .idle [] 0x01)) =
      some { code := .integrity, warn := 2, payload := some [], rxst := some 0x11 } := by decide
theorem test_numFields :
    answer (exec (.numFields 0xFF) State.reset) =
      some { vneg := some true, eneg := some true, emag := some 63, exp := some (-63) } := by decide
theorem test_numMant :
    answer (exec (.numMant [0x12, 0x34, 0x56, 0x78, 0x9A]) State.reset) = some { mant := some 78187493530 } := by decide
theorem test_numMant_long :
    answer (exec (.numMant (List.replicate 256 0xFF)) State.reset) = some { code := .invalidArg } := by decide +kernel
theorem test_numValue :
    answer (exec (.numValue 0xC2 [0x01, 0x02]) State.reset) =
      some { vneg := some true, mant := some 258, exp := some (-2) } := by decide
theorem test_numValue_empty :
    answer (exec (.numValue 0x80 []) State.reset) =
      some { vneg := some true, mant := some 0, exp := some 0 } := by decide
theorem test_numSingle :
    answer (exec (.numSingle 0x003C reading) State.reset) = some { recd := some readingRecord } := by decide
theorem test_numSingle_trailing :
    answer (exec (.numSingle 0x003C [0x3F, 0x10, 0x00, 0x3C, 0x15, 0x01, 0x81, 0x05, 0xAA, 0xBB, 0xF4, 0x9F]) State.reset) =
      some { recd := some { id := 0x003C, unit := 21, mlen := 1, vneg := true, mant := 5, exp := 1 } } := by decide
theorem test_numMulti :
    answer (exec (.numMulti [0x003C, 0x0044]
        [0x3F, 0x10, 0x28, 0x04, 0x43, 0x00, 0x01, 0xE2, 0x40, 0x15, 0x02, 0x02, 0x01, 0x02, 0xD3, 0xCE]) State.reset) =
      some { recs := some [readingRecord, { id := 0x0044, unit := 21, mlen := 2, vneg := false, mant := 258, exp := 2 }] } := by
  decide
theorem test_numMulti_other_layout :
    answer (numMulti { testConfig none with multiRecIdBytes := 2 } [0x003C, 0x0044]
        [0x3F, 0x10, 0x28, 0x04, 0x43, 0x00, 0x01, 0xE2, 0x40, 0x15, 0x02, 0x02, 0x01, 0x02, 0xD3, 0xCE] State.reset) =
      some { warn := 4,
             recs := some [{ id := 0x003C, unit := 67, mlen := 0, vneg := false, mant := 0, exp := 1 },
               { id := 0x0044, unit := 21, mlen := 2, vneg := false, mant := 258, exp := 2 }] } := by decide
theorem test_ctlWr : after (exec (.ctlWr 0xFE) (receiving .idle [] 0x01)) = some State.reset := by decide
theorem test_ctlRd : answer (exec .ctlRd (receiving .idle [] 0x01)) = some { ctrl := some 0x01 } := by decide
theorem test_asm_numSingle :
    asmLine (.numSingle 0x003C [0x3F, 0x10]) = "NUM.SINGLE 0x003C, [3F 10]".toList := by decide +kernel
theorem test_request_single : singleRequest 0x003C = [0x3F, 0x10, 0x01, 0x00, 0x3C] := by decide
theorem test_request_multi : multiRequest [0x003C, 0x0044] = some [0x3F, 0x10, 0x02, 0x00, 0x3C, 0x00, 0x44] := by decide

/-! ## Values that meet the hypotheses of each statement, one theorem a statement, every clause in it -/

theorem test_witness_DecodeInvertsEncode : (Instr.numMulti (List.replicate 255 0x003C) [0x3F]).wellFormed = true := by
  decide +kernel
theorem test_witness_EncodeInvertsDecode : decode [0x02, 0x56, 0x41] = .command (.crcFeed 0x56) [0x41] := by decide
theorem test_witness_UnassignedOpcodeIsIllegalCommand :
    (∀ op ∈ [0x08#8, 0x0F#8, 0x13#8, 0x1F#8, 0x28#8, 0x2F#8, 0x35#8, 0x3F#8, 0x42#8, 0xFF#8], unassignedOpcode op ∧
      (State.reset.setCmd [op, 0x41]).rst = false ∧ (State.reset.setCmd [op, 0x41]).cmd = op :: [0x41]) ∧
    (∀ op ∈ [0x00#8, 0x07#8, 0x10#8, 0x12#8, 0x20#8, 0x27#8, 0x30#8, 0x34#8, 0x40#8, 0x41#8], ¬ unassignedOpcode op) := by
  unfold unassignedOpcode; decide +kernel
theorem test_witness_IncompleteCommandIssuesNothing :
    (Instr.crcCalc [0x31, 0x32]).wellFormed = true ∧
      encode (.crcCalc [0x31, 0x32]) = [0x05, 0x00, 0x02, 0x31] ++ [0x32] ∧ [0x32#8] ≠ [] ∧
      (State.reset.setCmd [0x05, 0x00, 0x02, 0x31]).rst = false := by decide
theorem test_witness_StepRunsTheDecodedCommand :
    (State.reset.setCmd [0x02, 0x56, 0x03]).rst = false ∧
      decode (State.reset.setCmd [0x02, 0x56, 0x03]).cmd = .command (.crcFeed 0x56) [0x03] := by decide
theorem test_witness_ResetInputRestoresResetValues :
    ((receiving .accum [0x40, 0x3F] 0x01).setRst true).rst = true := by decide

/-- A receiver that has seen a marker and one byte, with RX.BYTE 0x40 on the port: it meets R32's invariants whenever the
body fits. -/
theorem receiving_invariants (max : Option Nat) (h : fitsBody max []) :
    Invariants max ((receiving .accum [0x40] 0x01).setCmd [0x21, 0x40]) where
  emptyBuffer := by intro h; simp [receiving] at h
  accumulating := fun _ => ⟨[], rfl, h, by simp⟩
  noResult := fun _ => ⟨rfl, rfl⟩
  ctrlReserved := by decide

theorem fitsBody_nil (max : Option Nat) : fitsBody max [] := by
  cases max <;> simp [fitsBody]

theorem test_witness_StepKeepsInvariants :
    Invariants blockConfig.rxBodyMax ((receiving .accum [0x40] 0x01).setCmd [0x21, 0x40]) ∧
      ∃ t, step ((receiving .accum [0x40] 0x01).setCmd [0x21, 0x40]) = .next t ∧ t.rxs = .accum :=
  ⟨receiving_invariants _ (fitsBody_nil _), _, rfl, rfl⟩
theorem test_witness_StepKeepsLegalStatus :
    StatusInvariants { State.reset with rxp := [0x00], rxst := 0x03, cmd := [0x20] } ∧
      ∃ t, step { State.reset with rxp := [0x00], rxst := 0x03, cmd := [0x20] } = .next t ∧ t.rxst = 0x00 :=
  ⟨{ legal := by decide, delivered := fun h => absurd h (by decide) }, _, rfl, rfl⟩
theorem test_witness_CommandsRespectAccessMatrix :
    ((∃ t, exec (.crcFeed 0x56) State.reset = .next t) ∧ Reg.rxs ∉ writesOf (.crcFeed 0x56)) ∧
    (∃ t r, exec (.rxByte 0x40) State.reset = .next t ∧ t.resp = some r ∧ r.code = .badState) ∧
    ((∀ q ∈ readsOf (.crcFeed 0x56), q.same State.reset (receiving .seeking [] 0x01)) ∧
      (∃ t, exec (.crcFeed 0x56) State.reset = .next t) ∧
      ∃ t, exec (.crcFeed 0x56) (receiving .seeking [] 0x01) = .next t) :=
  ⟨⟨⟨_, rfl⟩, by decide⟩, ⟨_, _, rfl, rfl, rfl⟩, by simp [readsOf, Reg.same, receiving], ⟨_, rfl⟩, _, rfl⟩
theorem test_witness_RejectedCommandsChangeNothing :
    (∃ t r, exec (.rxByte 0x40) State.reset = .next t ∧ t.resp = some r ∧ r.code = .badState) ∧
    (∃ t r, exec (.numMulti [0x0001] [0x3F, 0x11, 0x01, 0x00, 0x00, 0x33, 0x34]) State.reset = .next t ∧ t.resp = some r ∧
      r.code = .protoMismatch) ∧
    (∃ t r, exec (.numMulti [0x0001] [0x3F]) State.reset = .next t ∧ t.resp = some r ∧ r.code = .truncated) ∧
    (∃ t r, exec (.numMulti [] [0x3F]) State.reset = .next t ∧ t.resp = some r ∧ r.code = .invalidArg) :=
  ⟨⟨_, _, rfl, rfl, rfl⟩, ⟨_, _, rfl, rfl, rfl⟩, ⟨_, _, rfl, rfl, rfl⟩, _, _, rfl, rfl, rfl⟩
theorem test_witness_OutcomesComeFromTheirCommands :
    ∃ t r, exec (.decUnstuff [0x1B]) State.reset = .next t ∧ t.resp = some r ∧ r.warn = 1 :=
  ⟨_, _, rfl, rfl, rfl⟩
theorem test_witness_ReadersAreIdempotent :
    writesOf (.decUnstuff [0x1B]) = [] ∧ ∃ t, exec (.decUnstuff [0x1B]) State.reset = .next t := ⟨rfl, _, rfl⟩
theorem test_witness_StuffedBytesAreTransparent :
    0x41#8 ∈ stuff [0x41] ∧ stuff [0x41, 0x06] = [0x41] ++ 0x1B :: [0xF9] ∧ 0x80#8 ≠ 0x0D#8 := by decide

/-- Each clause: idle; the marker in either receiving state; garbage; a byte that finds the buffer full, and one that finds
it one short of full. -/
theorem test_witness_RxByteFollowsStateMachine :
    State.reset.rxs = .idle ∧ (receiving .seeking [] 0x00).rxs ≠ .idle ∧ (receiving .accum [0x40] 0x00).rxs ≠ .idle ∧
    ((receiving .seeking [] 0x00).rxs = .seeking ∧ 0x0D#8 ≠ 0x40#8) ∧
    ((receiving .accum [0x40, 0x01, 0x02] 0x00).rxs = .accum ∧ 0x03#8 ≠ 0x40#8 ∧ 0x03#8 ≠ 0x0D#8 ∧
      (testConfig (some 2)).rxBodyMax = some 2 ∧ (receiving .accum [0x40, 0x01, 0x02] 0x00).rxbuf.length = 2 + 1) ∧
    ((receiving .accum [0x40, 0x01] 0x00).rxs = .accum ∧
      ∀ m : Nat, (testConfig (some 2)).rxBodyMax = some m → (receiving .accum [0x40, 0x01] 0x00).rxbuf.length ≠ m + 1) := by
  refine ⟨by decide, by decide, by decide, by decide, by decide, by decide, fun m h => ?_⟩
  cases h; decide
theorem test_witness_RxByteCompletesFrame :
    ((receiving .accum [0x40] 0x00).rxs = .accum ∧ unstuff ([0x40#8].drop 1) = ([], false) ∧ crc16 [] = 0x0000) ∧
    (unstuff ([0x40#8, 0x1B#8].drop 1) = ([], true) ∧ crc16 [] = 0x0000) ∧
    (unstuff (0x40#8 :: badBody |>.drop 1) = (badBody, false) ∧ crc16 badBody ≠ 0x0000 ∧
      (receiving .accum (0x40 :: badBody) 0x00).ctrl.getLsbD 0 = false ∧
      (receiving .accum (0x40 :: badBody) 0x01).ctrl.getLsbD 0 = true) := by decide
theorem test_witness_RxTimeoutEndsDecode : (receiving .seeking [] 0x00).rxs ≠ .idle ∧ State.reset.rxs = .idle := by decide
theorem test_witness_RxEosEndsDecode : (receiving .accum [0x40] 0x00).rxs ≠ .idle ∧ State.reset.rxs = .idle := by decide
theorem test_witness_RxDecodeDeliversFirstFrame :
    ((∀ b ∈ [0x55#8, 0x0D#8], b ≠ 0x40) ∧ (∀ b ∈ readingBody, b ≠ 0x40 ∧ b ≠ 0x0D) ∧
      fitsBody (testConfig (some 14)).rxBodyMax readingBody ∧ [0x55#8, 0x0D#8].length + readingBody.length + 2 ≤ 65535 ∧
      unstuff readingBody = (reading, false) ∧ crc16 reading = 0x0000) ∧
    ((∀ b ∈ badBody, b ≠ 0x40 ∧ b ≠ 0x0D) ∧ fitsBody (testConfig (some 1)).rxBodyMax badBody ∧
      unstuff badBody = (badBody, false) ∧ crc16 badBody ≠ 0x0000 ∧ State.reset.ctrl.getLsbD 0 = false ∧
      (receiving .idle [] 0x01).ctrl.getLsbD 0 = true) := by
  simp only [testConfig, fitsBody]; decide +kernel
theorem test_witness_RxDecodeWithoutFrameIsFraming :
    ((∀ b ∈ [0x55#8, 0x0D#8], b ≠ 0x40) ∧ [0x55#8, 0x0D#8].length ≤ 65535) ∧
    ((∀ b ∈ badBody, b ≠ 0x40 ∧ b ≠ 0x0D) ∧ fitsBody (testConfig (some 1)).rxBodyMax badBody ∧
      [0x55#8, 0x0D#8].length + badBody.length + 1 ≤ 65535) := by
  simp only [testConfig, fitsBody]; decide +kernel
theorem test_witness_RxDecodeAgreesWithStreaming : [0x40#8, 0x3F#8].length ≤ 65535 := by decide
theorem test_witness_DecUnstuffUnescapes : 0x41#8 ≠ 0x1B#8 := by decide
theorem test_witness_DecBodyCompletesBody :
    (unstuff [0x1B#8, 0xFF#8] = ([0x00], true) ∧ crc16 [0x00] = 0x0000) ∧
    (unstuff badBody = (badBody, false) ∧ crc16 badBody ≠ 0x0000 ∧ State.reset.ctrl.getLsbD 0 = false ∧
      (receiving .idle [] 0x01).ctrl.getLsbD 0 = true) := by decide
theorem test_witness_GarbageBeforeMarkerIsDiscarded :
    (receiving .seeking [] 0x00).rxs = .seeking ∧ (receiving .seeking [] 0x00).rxbuf = [] ∧
      (∀ b ∈ [0x55#8, 0x0D#8], b ≠ 0x40) ∧ [0x40#8] ≠ [] := by decide +kernel
theorem test_witness_MarkerRestartsTheFrame : (receiving .accum [0x40, 0x11] 0x00).rxs = .accum := by decide
theorem test_witness_ReceiverAcceptsEncodedFrame :
    ((receiving .seeking [] 0x01).rxst = 0x00 ∧ (receiving .seeking [] 0x01).rxp = [] ∧
      fitsBody (testConfig (some 4)).rxBodyMax (stuff ([0x06] ++ be16 (fcs [0x06]))) ∧
      0 < ([0x55, 0x0D] ++ frame 0x40 [0x06]).length) ∧
    ((receiving .seeking [] 0x01).rxs = .seeking ∧ ∀ b ∈ [0x55#8, 0x0D#8], b ≠ 0x40) ∧
    ((receiving .accum [0x40, 0x11] 0x01).rxs = .accum ∧ (receiving .accum [0x40, 0x11] 0x01).rxst = 0x00 ∧
      (receiving .accum [0x40, 0x11] 0x01).rxp = [] ∧ (∀ b ∈ [0x22#8, 0x40#8, 0x33#8], b ≠ 0x0D) ∧
      fitsBody (testConfig (some 4)).rxBodyMax
        ((receiving .accum [0x40, 0x11] 0x01).rxbuf.drop 1 ++ [0x22, 0x40, 0x33])) ∧
    ((∀ b ∈ [0x55#8, 0x0D#8], b ≠ 0x40) ∧ (∀ b ∈ [0x11#8, 0x22#8, 0x33#8, 0x44#8], b ≠ 0x0D) ∧
      fitsBody (testConfig (some 4)).rxBodyMax [0x11, 0x22, 0x33, 0x44]) := by
  simp only [testConfig, fitsBody]; decide +kernel
theorem test_witness_ForeignFrameCompletesNothing :
    0x80#8 ≠ 0x40#8 ∧ (receiving .seeking [] 0x00).rxs = .seeking := by decide
theorem test_witness_StrictModeDeliversOnlyCheckedPayloads :
    (receiving .accum [0x40] 0x01).ctrl.getLsbD 0 = true ∧
    (receiving .accum [0x40] 0x01).rxs ≠ .idle ∧
    (∃ t, exec (.rxByte 0x0D) (receiving .accum [0x40] 0x01) = .next t ∧ t.rxs = .idle) ∧
    (∃ t r, exec (.rxDecode [0x40, 0x0D]) (receiving .accum [0x40] 0x01) = .next t ∧ t.resp = some r ∧
      r.payload = some []) ∧
    (∃ t r, exec (.decBody [0x00]) (receiving .accum [0x40] 0x01) = .next t ∧ t.resp = some r ∧
      r.payload = some [0x00]) :=
  ⟨by decide, by decide, ⟨_, rfl, rfl⟩, ⟨_, _, rfl, rfl, rfl⟩, _, _, rfl, rfl, rfl⟩
theorem test_witness_NumMantBuildsBigEndianNumber :
    (List.replicate 255 0x00#8).length ≤ 255 ∧ 255 < (List.replicate 256 0x00#8).length := by decide +kernel
theorem test_witness_NumValueGivesTriple :
    (List.replicate 255 0x00#8).length ≤ 255 ∧ 255 < (List.replicate 256 0x00#8).length := by decide +kernel
theorem test_witness_ValueIsExactRational : mant [0x00, 0x00] = 0 := by decide
theorem test_witness_NumSingleReadsResponse :
    (List.replicate 255 0x00#8).length ≤ 255 ∧ (0x003D : Word) ≠ 0x003C ∧ (∀ u ∈ [1#8, 21#8, 40#8], u = 1 ∨ u = 21 ∨ u = 40) ∧
      64 < (65#8).toNat := by decide +kernel
theorem test_witness_NumSingleChecksInOrder :
    (reading.take 8).length < 9 ∧ (7 ≤ (List.replicate 7 0x00#8).length ∧ (0x3F#8 ≠ 0x3F#8 ∨ 0x11#8 ≠ 0x10#8)) ∧
      ((0x003D : Word) ≠ 0x003C ∧ ([] : List Byte).length < (0x01#8).toNat) ∧
      (List.replicate 254 0x00#8).length < (0xFF#8).toNat := by
  decide +kernel
theorem test_witness_NumMultiReadsRecordsInOrder :
    ∃ (ids : List Word) (rs : List WireRecord), 1 ≤ ids.length ∧ ids.length ≤ 255 ∧ ids.length ≤ rs.length ∧
      ∀ r ∈ rs, r.mantissa.length ≤ 255 :=
  ⟨List.replicate 255 0x003C, List.replicate 256 { unit := 40, e := 0x43, mantissa := [0x01] }, by decide +kernel⟩
theorem test_witness_NumMultiFailsClosed :
    (([] : List Word).length = 0 ∧ 255 < (List.replicate 256 0x003C#16).length) ∧
    (1 ≤ [0x003C#16].length ∧ (List.replicate 255 0x003C#16).length ≤ 255 ∧ [0x3F#8, 0x10#8, 0x00#8].length < 4 ∧
      2 ≤ [0x33#8, 0x34#8].length ∧ (0x3F#8 ≠ 0x3F#8 ∨ 0x11#8 ≠ 0x10#8)) ∧
    (([] : List WireRecord).length < [0x003C#16].length ∧
      (∀ r ∈ [({ unit := 40, e := 0x43, mantissa := [0x01] } : WireRecord)], r.mantissa.length ≤ 255) ∧
      [({ unit := 40, e := 0x43, mantissa := [0x01] } : WireRecord)].length < [0x003C#16, 0x0044#16].length ∧
      ([] : List Byte).length < 3 ∧ [0x28#8, 0x04#8].length < 3 ∧ [0x00#8, 0x01#8].length < (0x04#8).toNat ∧
      (List.replicate 254 0x00#8).length < (0xFF#8).toNat) := by
  decide +kernel
theorem test_witness_MeterReadingReachesTheHost :
    (receiving .seeking [] 0x01).rxs = .seeking ∧ (∀ b ∈ [0x55#8, 0x0D#8], b ≠ 0x40) ∧
      [0x00#8, 0x01#8, 0xE2#8, 0x40#8].length ≤ 255 ∧
      fitsBody (testConfig (some 14)).rxBodyMax
        (stuff (singleResponse 0x003C { unit := 40, e := 0x43, mantissa := [0x00, 0x01, 0xE2, 0x40] } [])) := by
  simp only [testConfig, fitsBody]; decide +kernel

end Sys2Proof.Tests
end

section
/-! PROOFS. What one command may write and on what its answer depends, said once for all 26 commands (10_state.md R33), and
from it the invariants of the state (R26, R27, R32) and the access matrix. -/

namespace Sys2Proof.Machine

/-! ## The writes of a command as data -/

/-- What one command writes to the registers: nothing, one engine's registers, or the receiver's. -/
inductive Update where
  | unchanged
  | crc (v : Word)
  | ctrl (v : Byte)
  /-- RX.BYTE goes on with the frame (R156). -/
  | receive (st : RxState) (buf : List Byte)
  /-- A decode is started or ended: the buffer is emptied and a result is left (R155, R158 to R161). -/
  | result (st : RxState) (payload : List Byte) (status : Byte)

/-- The state after the writes. -/
def Update.apply : Update → State → State
  | .unchanged, s => s
  | .crc v, s => s.setCrc v
  | .ctrl v, s => s.setCtrl v
  | .receive st buf, s => s.setRx st buf
  | .result st payload status, s => (s.setRx st []).setResult payload status

/-- The registers the update writes. -/
def Update.writes : Update → List Reg
  | .unchanged => []
  | .crc _ => [.crc]
  | .ctrl _ => [.ctrl]
  | .receive _ _ => [.rxs, .rxbuf]
  | .result _ _ _ => [.rxs, .rxbuf, .rxp, .rxst]

@[simp] theorem Reg.same_refl (q : Reg) (s : State) : q.same s s := by cases q <;> rfl

/-- The response port is no register. -/
@[simp] theorem Reg.same_setResp (q : Reg) (s t : State) (r : Response) : q.same s (t.setResp r) ↔ q.same s t := by
  cases q <;> rfl

@[simp] theorem Reg.setResp_same (q : Reg) (s t : State) (r : Response) : q.same (s.setResp r) t ↔ q.same s t := by
  cases q <;> rfl

/-- A register outside the written ones keeps its value. -/
theorem Update.same_apply_of_notMem {u : Update} {q : Reg} (h : q ∉ u.writes) (s : State) : q.same s (u.apply s) := by
  cases u <;> cases q <;> simp_all [Update.writes, Update.apply, Reg.same]

/-- A written register's new value does not depend on the state. -/
theorem Update.apply_same_apply_of_mem {u : Update} {q : Reg} (h : q ∈ u.writes) (s₁ s₂ : State) :
    q.same (u.apply s₁) (u.apply s₂) := by
  cases u <;> cases q <;> simp_all [Update.writes, Update.apply, Reg.same]

/-! ## Legal results (R26, R27) -/

/-- A payload and a status that may stand together in `RXP` and `RXST`. -/
def LegalResult (payload : List Byte) (status : Byte) : Prop :=
  legalStatus status = true ∧ (status &&& stValid = 0x00 → payload = [])

theorem StatusInvariants.iff_legalResult (s : State) : StatusInvariants s ↔ LegalResult s.rxp s.rxst :=
  ⟨fun ⟨legal, delivered⟩ => ⟨legal, delivered⟩, fun ⟨legal, delivered⟩ => ⟨legal, delivered⟩⟩

/-- A decode that delivers nothing leaves a legal result whenever its status is legal. -/
theorem LegalResult.empty {status : Byte} (h : legalStatus status = true) : LegalResult [] status := ⟨h, fun _ => rfl⟩

theorem legalStatus_completionStatus {valid crcErr : Bool} (escWarn : Bool) (h : valid = true ∨ crcErr = true) :
    legalStatus (completionStatus valid crcErr escWarn) = true := by
  revert valid crcErr escWarn; decide

theorem completionStatus_true_and_stValid_ne_zero (crcErr escWarn : Bool) :
    completionStatus true crcErr escWarn &&& stValid ≠ 0x00 := by
  revert crcErr escWarn; decide

/-- Both ways a frame completes leave a legal result (R152, R153). -/
theorem legalResult_complete (body : List Byte) (strict : Bool) :
    LegalResult (complete body strict).payload (complete body strict).rxst := by
  obtain ⟨_, _, _, hst⟩ | ⟨_, _, _, hp, hst⟩ := complete_cases body strict
  · rw [hst]
    exact ⟨legalStatus_completionStatus _ (.inl rfl),
      fun h => absurd h (completionStatus_true_and_stValid_ne_zero _ _)⟩
  · rw [hp, hst]
    exact .empty (legalStatus_completionStatus _ (.inr rfl))

/-! ## The receive buffer (R32) -/

/-- A body short of the limit has room for one more byte. -/
theorem fitsBody_append_singleton {max : Option Nat} {body : List Byte} (m b : Byte)
    (hfits : fitsBody max body) (hroom : bodyFull max (m :: body) = false) : fitsBody max (body ++ [b]) := by
  cases max with
  | none => trivial
  | some n =>
    have hne : body.length ≠ n := by simpa [bodyFull] using hroom
    have hle : body.length ≤ n := hfits
    simp only [fitsBody, List.length_append, List.length_singleton]
    omega

/-- Waiting for the marker, a decode holds no byte (R32). -/
theorem Invariants.setRx_seeking {max : Option Nat} {s : State} (hs : Invariants max s) (hbusy : s.rxs ≠ .idle) :
    Invariants max (s.setRx .seeking []) :=
  ⟨fun _ => rfl, nofun, fun _ => hs.noResult hbusy, hs.ctrlReserved⟩

/-- Receiving a frame, a decode holds the marker and a plain body that fits (R32). -/
theorem Invariants.setRx_accum {max : Option Nat} {s : State} (hs : Invariants max s) (hbusy : s.rxs ≠ .idle)
    {body : List Byte} (hfits : fitsBody max body) (hplain : ∀ c ∈ body, c ≠ startMarker ∧ c ≠ terminator) :
    Invariants max (s.setRx .accum (startMarker :: body)) :=
  ⟨nofun, fun _ => ⟨body, rfl, hfits, hplain⟩, fun _ => hs.noResult hbusy, hs.ctrlReserved⟩

/-- A byte that completes no frame leaves a decode in progress whose buffer meets R32. -/
theorem Invariants.receive {max : Option Nat} {s : State} {b : Byte} {st : RxState} {buf : List Byte}
    (hs : Invariants max s) (hbusy : s.rxs ≠ .idle) (hstep : rxStep max s.rxs s.rxbuf b = (st, buf, .none)) :
    Invariants max (s.setRx st buf) := by
  obtain ⟨_, h⟩ | ⟨_, _, h⟩ | ⟨_, _, h⟩ | ⟨_, _, _, _, h⟩ | ⟨hacc, hmark, hterm, hroom, h⟩ :=
      rxStep_cases max s.rxs s.rxbuf b hbusy <;>
    rw [h] at hstep <;> cases hstep
  case inl => exact hs.setRx_accum hbusy (by cases max <;> simp [fitsBody]) (by simp)
  case inr.inl => exact hs.setRx_seeking hbusy
  case inr.inr.inr.inr =>
    obtain ⟨body, hbuf, hfits, hplain⟩ := hs.accumulating hacc
    rw [hbuf] at hroom ⊢
    refine hs.setRx_accum hbusy (fitsBody_append_singleton _ b hfits hroom) fun c hc => ?_
    obtain hc | rfl : c ∈ body ∨ c = b := by simpa using hc
    · exact hplain c hc
    · exact ⟨hmark, hterm⟩

/-! ## What every command does -/

/-- What holds of the writes a command makes in state `s`. -/
def Update.Justified (s : State) : Update → Prop
  | .unchanged => True
  | .crc _ => True
  | .ctrl v => v &&& 0xFE = 0x00
  | .receive st buf => s.rxs ≠ .idle ∧ ∃ b, rxStep blockConfig.rxBodyMax s.rxs s.rxbuf b = (st, buf, .none)
  | .result st payload status =>
    (st = .seeking ∧ payload = [] ∧ status = 0x00) ∨ (st = .idle ∧ LegalResult payload status)

/-- Command `i` in state `s` makes the writes `u` and answers `r`, and so it does in every state that holds the same in the
registers `i` reads. -/
structure Answers (i : Instr) (s : State) (u : Update) (r : Response) : Prop where
  exec_eq : ∀ s', (∀ q ∈ readsOf i, q.same s s') → exec i s' = .next ((u.apply s').setResp r)
  writes : u.writes ⊆ writesOf i
  badState : r.code = .badState → u = .unchanged
  justified : u.Justified s

theorem Answers.exec_self {i : Instr} {s : State} {u : Update} {r : Response} (h : Answers i s u r) :
    exec i s = .next ((u.apply s).setResp r) :=
  h.exec_eq s fun q _ => q.same_refl s

section
variable {i : Instr} {s : State} {r : Response}

/-- A command that only answers. -/
theorem Answers.ofReply (h : ∀ s', (∀ q ∈ readsOf i, q.same s s') → exec i s' = .next (s'.setResp r)) :
    ∃ u r, Answers i s u r :=
  ⟨.unchanged, r, h, List.nil_subset _, fun _ => rfl, trivial⟩

/-- A command that writes `CRC`. -/
theorem Answers.ofCrc {v : Word} (hw : writesOf i = [.crc]) (hr : r.code = .ok)
    (h : ∀ s', (∀ q ∈ readsOf i, q.same s s') → exec i s' = .next ((s'.setCrc v).setResp r)) :
    ∃ u r, Answers i s u r :=
  ⟨.crc v, r, h, by simp [Update.writes, hw], by simp [hr], trivial⟩

/-- A command that starts or ends a decode. -/
theorem Answers.ofResult {st : RxState} {payload : List Byte} {status : Byte}
    (hw : writesOf i = [.rxs, .rxbuf, .rxp, .rxst]) (hr : r.code ≠ .badState)
    (hj : (Update.result st payload status).Justified s)
    (h : ∀ s', (∀ q ∈ readsOf i, q.same s s') →
      exec i s' = .next (((s'.setRx st []).setResult payload status).setResp r)) :
    ∃ u r, Answers i s u r :=
  ⟨.result st payload status, r, h, by simp [Update.writes, hw], fun hb => absurd hb hr, hj⟩

end

theorem State.strict_eq_of_ctrl_eq {s s' : State} (h : s.ctrl = s'.ctrl) : s'.strict = s.strict := by
  rw [State.strict, State.strict, h]

theorem complete_code_ne_badState (body : List Byte) (strict : Bool) : (complete body strict).code ≠ .badState := by
  obtain ⟨_, hc, _⟩ | ⟨_, _, hc, _⟩ := complete_cases body strict <;> simp [hc]

/-- RX.BYTE goes on with the frame, completes it or overflows, as R154 says for `CTRL`, `RXS` and `RXBUF` (R156). -/
theorem exists_answers_rxByte (b : Byte) (s : State) : ∃ u r, Answers (.rxByte b) s u r := by
  have reads {s' : State} (h : ∀ q ∈ readsOf (.rxByte b), q.same s s') :
      s'.strict = s.strict ∧ s'.rxs = s.rxs ∧ s'.rxbuf = s.rxbuf :=
    ⟨State.strict_eq_of_ctrl_eq (h .ctrl (by simp [readsOf])), (h .rxs (by simp [readsOf])).symm,
      (h .rxbuf (by simp [readsOf])).symm⟩
  by_cases hi : s.rxs = .idle
  · refine Answers.ofReply fun s' h => rxByte_idle _ b s' ?_
    obtain ⟨_, hrxs, _⟩ := reads h
    rw [hrxs, hi]
  have receive {st : RxState} {buf : List Byte}
      (hs : rxStep blockConfig.rxBodyMax s.rxs s.rxbuf b = (st, buf, .none)) : ∃ u r, Answers (.rxByte b) s u r := by
    refine ⟨.receive st buf, { rxs := some st, done := some false }, fun s' h => ?_, by simp [Update.writes, writesOf],
      by simp, hi, b, hs⟩
    obtain ⟨_, hrxs, hbuf⟩ := reads h
    simp [exec, execRxByte, rxByte, Update.apply, hrxs, hbuf, hi, hs]
  obtain ⟨_, hs⟩ | ⟨_, _, hs⟩ | ⟨_, _, hs⟩ | ⟨_, _, _, _, hs⟩ | ⟨_, _, _, _, hs⟩ :=
    rxStep_cases blockConfig.rxBodyMax s.rxs s.rxbuf b hi
  · exact receive hs
  · exact receive hs
  · let c := complete (s.rxbuf.drop 1) s.strict
    refine Answers.ofResult (r := { code := c.code, warn := c.warn, rxs := some .idle, done := some true }) rfl
      (complete_code_ne_badState _ _) (.inr ⟨rfl, legalResult_complete (s.rxbuf.drop 1) s.strict⟩) fun s' h => ?_
    obtain ⟨hstrict, hrxs, hbuf⟩ := reads h
    simp [exec, execRxByte, rxByte, finishFrame_eq, hstrict, hrxs, hbuf, hi, hs, c]
  · refine Answers.ofResult (r := { code := .overflow, rxs := some .idle, done := some false }) rfl (by simp)
      (.inr ⟨rfl, .empty (by decide : legalStatus stOverflow = true)⟩) fun s' h => ?_
    obtain ⟨_, hrxs, hbuf⟩ := reads h
    simp [exec, execRxByte, rxByte, hrxs, hbuf, hi, hs]
  · exact receive hs

/-- RX.TIMEOUT and RX.EOS: `BAD_STATE` with no decode in progress, else the decode ends with a status (R159, R160). -/
theorem exists_answers_of_endDecode {i : Instr} {c : Code} {status : Byte} (s : State)
    (hr : readsOf i = [.rxs]) (hw : writesOf i = [.rxs, .rxbuf, .rxp, .rxst])
    (hc : c ≠ .badState) (hl : legalStatus status = true)
    (h : ∀ s', exec i s' = if s'.rxs = .idle then raise .badState {} s' else raise c {} (s'.endDecode [] status)) :
    ∃ u r, Answers i s u r := by
  have reads {s' : State} (hsame : ∀ q ∈ readsOf i, q.same s s') : s.rxs = s'.rxs := hsame .rxs (by simp [hr])
  by_cases hi : s.rxs = .idle
  · exact Answers.ofReply fun s' hsame => by rw [h, if_pos (reads hsame ▸ hi), raise_eq]
  · exact Answers.ofResult hw hc (.inr ⟨rfl, .empty hl⟩) fun s' hsame => by
      rw [h, if_neg (reads hsame ▸ hi), raise_eq, State.endDecode_eq]

/-- Everything a command can do (R33, R264). -/
theorem exists_answers (i : Instr) (s : State) : ∃ u r, Answers i s u r := by
  cases i with
  | nop => exact Answers.ofReply fun _ _ => rfl
  | crcClr => exact Answers.ofCrc rfl rfl fun _ _ => rfl
  | crcFeed b =>
    refine Answers.ofCrc (v := crcStep8 s.crc b) (r := { crc := some (crcStep8 s.crc b) }) rfl rfl fun s' h => ?_
    rw [show s.crc = s'.crc from h .crc (by simp [readsOf])]; rfl
  | crcRead =>
    refine Answers.ofReply (r := { crc := some s.crc }) fun s' h => ?_
    rw [show s.crc = s'.crc from h .crc (by simp [readsOf])]; rfl
  | crcBlock data =>
    refine Answers.ofCrc (v := crcFold s.crc data) (r := { crc := some (crcFold s.crc data) }) rfl rfl fun s' h => ?_
    rw [show s.crc = s'.crc from h .crc (by simp [readsOf])]; rfl
  | crcCalc data => exact Answers.ofCrc rfl rfl fun _ _ => rfl
  | crcFcs payload => exact Answers.ofCrc rfl rfl fun _ _ => rfl
  | crcCheck data => exact Answers.ofCrc rfl rfl fun _ _ => rfl
  | encEsc b => exact Answers.ofReply fun _ _ => rfl
  | encStuff data => exact Answers.ofReply fun _ _ => rfl
  | encFrame pfx payload => exact Answers.ofReply fun _ _ => rfl
  | rxStart => exact Answers.ofResult rfl (by simp) (.inl ⟨rfl, rfl, rfl⟩) fun _ _ => rfl
  | rxByte b => exact exists_answers_rxByte b s
  | rxTimeout => exact exists_answers_of_endDecode s rfl rfl (by simp) (by decide) fun _ => rfl
  | rxEos => exact exists_answers_of_endDecode s rfl rfl (by simp) (by decide) fun _ => rfl
  | rxRead =>
    refine Answers.ofReply (r := { rxs := some s.rxs, rxst := some s.readRxst, payload := some s.rxp }) fun s' h => ?_
    rw [State.readRxst, show s.rxs = s'.rxs from h .rxs (by simp [readsOf]),
      show s.rxst = s'.rxst from h .rxst (by simp [readsOf]), show s.rxp = s'.rxp from h .rxp (by simp [readsOf])]
    rfl
  | rxDecode data =>
    refine Answers.ofReply (r := decodeLoop blockConfig.rxBodyMax s.strict .seeking [] 0 data) fun s' h =>
      (rxDecode_eq _ data s').trans ?_
    rw [State.strict_eq_of_ctrl_eq (h .ctrl (by simp [readsOf]))]
  | decUnstuff data => exact Answers.ofReply fun _ _ => rfl
  | decBody body =>
    let c := complete body s.strict
    refine Answers.ofReply (r := { code := c.code, warn := c.warn, payload := some c.payload, rxst := some c.rxst })
      fun s' h => (execDecBody_eq body s').trans ?_
    rw [State.strict_eq_of_ctrl_eq (h .ctrl (by simp [readsOf]))]
  | numFields e => exact Answers.ofReply fun _ _ => rfl
  | numMant m =>
    by_cases hm : mantissaMax < m.length
    · exact Answers.ofReply fun _ _ => if_pos hm
    · exact Answers.ofReply fun _ _ => if_neg hm
  | numValue e m =>
    by_cases hm : mantissaMax < m.length
    · exact Answers.ofReply fun _ _ => if_pos hm
    · exact Answers.ofReply fun _ _ => if_neg hm
  | numSingle id payload => exact Answers.ofReply fun s' _ => numSingle_eq _ id payload s'
  | numMulti ids payload => exact Answers.ofReply fun s' _ => numMulti_eq _ ids payload s'
  | ctlWr v =>
    refine ⟨.ctrl (v &&& 0x01), { ctrl := some (v &&& 0x01) }, fun s' _ => ?_, List.Subset.refl _, by simp, ?_⟩
    · simp [exec, execCtlWr, Update.apply]
    · simp [Update.Justified, BitVec.and_assoc]
  | ctlRd =>
    refine Answers.ofReply (r := { ctrl := some s.readCtrl }) fun s' h => ?_
    rw [State.readCtrl, show s.ctrl = s'.ctrl from h .ctrl (by simp [readsOf])]; rfl

/-- A command that goes on has made the writes and the answer of `exists_answers`. -/
theorem exec_inv {i : Instr} {s t : State} (h : exec i s = .next t) :
    ∃ u r, Answers i s u r ∧ t = (u.apply s).setResp r := by
  obtain ⟨u, r, ha⟩ := exists_answers i s
  rw [ha.exec_self] at h
  exact ⟨u, r, ha, by simpa using h.symm⟩

/-! ## Invariants of every step -/

/-- A property of the registers that holds at reset and survives every command's writes survives every step. -/
theorem step_preserves {P : State → Prop} (hreset : P State.reset)
    (hcmd : ∀ s bs, P s → P (s.setCmd bs)) (hresp : ∀ s r, P s → P (s.setResp r))
    (happly : ∀ (s : State) (u : Update), u.Justified s → P s → P (u.apply s))
    {s t : State} (hs : P s) (h : step s = .next t) : P t := by
  obtain ⟨_, rfl⟩ | ⟨_, i, rest, _, hexec⟩ | ⟨_, op, rest, _, rfl⟩ | ⟨_, _, rfl⟩ := step_cases h
  · exact hcmd _ _ hreset
  · obtain ⟨u, r, ha, rfl⟩ := exec_inv hexec
    exact hresp _ _ (happly _ u ha.justified (hcmd _ _ hs))
  · exact hresp _ _ (hcmd _ _ hs)
  · exact hs

theorem Invariants.reset (max : Option Nat) : Invariants max State.reset where
  emptyBuffer _ := rfl
  accumulating h := by simp at h
  noResult h := by simp at h
  ctrlReserved := by simp

theorem Invariants.setCmd {max : Option Nat} {s : State} (h : Invariants max s) (bs : List Byte) :
    Invariants max (s.setCmd bs) := ⟨h.emptyBuffer, h.accumulating, h.noResult, h.ctrlReserved⟩

theorem Invariants.setResp {max : Option Nat} {s : State} (h : Invariants max s) (r : Response) :
    Invariants max (s.setResp r) := ⟨h.emptyBuffer, h.accumulating, h.noResult, h.ctrlReserved⟩

/-- The writes of every command keep R32's invariants. -/
theorem Invariants.apply {s : State} {u : Update} (hu : u.Justified s) (h : Invariants blockConfig.rxBodyMax s) :
    Invariants blockConfig.rxBodyMax (u.apply s) := by
  cases u with
  | unchanged => exact h
  | crc v => exact ⟨h.emptyBuffer, h.accumulating, h.noResult, h.ctrlReserved⟩
  | ctrl v => exact ⟨h.emptyBuffer, h.accumulating, h.noResult, hu⟩
  | receive st buf =>
    obtain ⟨hbusy, b, hstep⟩ := hu
    exact h.receive hbusy hstep
  | result st payload status =>
    obtain ⟨rfl, rfl, rfl⟩ | ⟨rfl, _⟩ := hu
    · exact ⟨fun _ => rfl, nofun, fun _ => ⟨rfl, rfl⟩, h.ctrlReserved⟩
    · exact ⟨fun _ => rfl, nofun, fun hne => absurd rfl hne, h.ctrlReserved⟩

/-- The writes of every command keep the status legal. -/
theorem StatusInvariants.apply {s : State} {u : Update} (hu : u.Justified s) (h : StatusInvariants s) :
    StatusInvariants (u.apply s) := by
  cases u with
  | unchanged | crc v | ctrl v | receive st buf => exact ⟨h.legal, h.delivered⟩
  | result st payload status =>
    rw [StatusInvariants.iff_legalResult]
    obtain ⟨_, rfl, rfl⟩ | ⟨_, hlegal⟩ := hu
    · exact .empty (by decide : legalStatus 0x00 = true)
    · exact hlegal

/-- Settles O9: every command's writes keep R32's invariants, and so do a reset, an illegal opcode and waiting. -/
theorem stepKeepsInvariants : Obligations.StepKeepsInvariants := fun _ _ hs h =>
  step_preserves (.reset _) (fun _ bs h => h.setCmd bs) (fun _ r h => h.setResp r) (fun _ _ hu h => h.apply hu) hs h

/-- Settles O10: every command that writes a result writes a legal one. -/
theorem stepKeepsLegalStatus : Obligations.StepKeepsLegalStatus := fun _ _ hs h =>
  step_preserves ⟨by decide, fun _ => rfl⟩ (fun _ _ h => ⟨h.legal, h.delivered⟩)
    (fun _ _ h => ⟨h.legal, h.delivered⟩) (fun _ _ hu h => h.apply hu) hs h

/-! ## The access matrix (R33) -/

/-- A command keeps the registers without a W entry. -/
theorem exec_frame {i : Instr} {s t : State} {q : Reg} (h : exec i s = .next t) (hq : q ∉ writesOf i) : q.same s t := by
  obtain ⟨u, r, ha, rfl⟩ := exec_inv h
  simpa using Update.same_apply_of_notMem (fun hu => hq (ha.writes hu)) s

/-- `BAD_STATE` comes with no write (60_exceptions.md R253). -/
theorem exec_badState_frame {i : Instr} {s t : State} {r : Response} (q : Reg) (h : exec i s = .next t)
    (hr : t.resp = some r) (hc : r.code = .badState) : q.same s t := by
  obtain ⟨u, r', ha, rfl⟩ := exec_inv h
  obtain rfl : r' = r := by simpa using hr
  rw [ha.badState hc]
  simp [Update.apply]

/-- States that agree on the registers with an R entry get the same answer and the same writes. -/
theorem exec_congr {i : Instr} {s₁ s₂ t₁ t₂ : State} (hreads : ∀ q ∈ readsOf i, q.same s₁ s₂)
    (h₁ : exec i s₁ = .next t₁) (h₂ : exec i s₂ = .next t₂) :
    t₁.resp = t₂.resp ∧ ∀ q : Reg, q.same t₁ t₂ ∨ (q.same s₁ t₁ ∧ q.same s₂ t₂) := by
  obtain ⟨u, r, ha, rfl⟩ := exec_inv h₁
  obtain rfl : (u.apply s₂).setResp r = t₂ := by simpa [ha.exec_eq s₂ hreads] using h₂
  refine ⟨rfl, fun q => ?_⟩
  by_cases hq : q ∈ u.writes
  · exact .inl (by simpa using Update.apply_same_apply_of_mem hq s₁ s₂)
  · exact .inr ⟨by simpa using Update.same_apply_of_notMem hq s₁, by simpa using Update.same_apply_of_notMem hq s₂⟩

/-- Settles O12: the frame, the `BAD_STATE` frame and the dependence on the R entries alone. -/
theorem commandsRespectAccessMatrix : Obligations.CommandsRespectAccessMatrix :=
  ⟨fun _ _ _ _ h hq => exec_frame h hq, fun _ _ _ _ q h hr hc => exec_badState_frame q h hr hc,
    fun _ _ _ _ _ hreads h₁ h₂ => exec_congr hreads h₁ h₂⟩

end Sys2Proof.Machine
end

section
/-! PROOFS. The commands that write no register (20_memory.md R57): all they leave behind is their answer, so issuing one of
them again finds the registers it read as they were. -/

namespace Sys2Proof.Machine

@[simp] theorem Update.writes_eq_nil_iff {u : Update} : u.writes = [] ↔ u = .unchanged := by
  cases u <;> simp [Update.writes]

/-- A command with no W entry only answers, and answers the same in every state that agrees on what it reads. -/
theorem exec_inv_of_writesOf_eq_nil {i : Instr} {s t : State} (hw : writesOf i = []) (h : exec i s = .next t) :
    ∃ r, t = s.setResp r ∧ ∀ s', (∀ q ∈ readsOf i, q.same s s') → exec i s' = .next (s'.setResp r) := by
  obtain ⟨u, r, ha, rfl⟩ := exec_inv h
  obtain rfl : u = .unchanged := Update.writes_eq_nil_iff.mp (List.subset_nil.mp (hw ▸ ha.writes))
  exact ⟨r, rfl, ha.exec_eq⟩

/-- Settles O15: the first answer changes no register, so the second issue reads what the first read and puts the same
response on the port. -/
theorem readersAreIdempotent : Obligations.ReadersAreIdempotent := by
  intro i s t hw h
  have hframe : ∀ q : Reg, q.same s t := fun q => exec_frame h (hw ▸ List.not_mem_nil)
  obtain ⟨r, rfl, hagain⟩ := exec_inv_of_writesOf_eq_nil hw h
  exact ⟨hframe, hagain (s.setResp r) fun q _ => hframe q⟩

end Sys2Proof.Machine
end

section
/-! PROOFS. The command port (30_encoding.md R70 to R77). Each operand kind is a reader and a writer that invert each other, and
each command is an opcode followed by one operand kind, so decoding and serialising invert each other. The bytes that are no
command are then a part of one (R77) or begin with a byte that begins none (R76). -/

namespace Sys2Proof

open Sys2Proof.Machine

/-! ## The operand readers, inverted (R73) -/

theorem takeB8_eq_some_iff {bs rest : List Byte} {b : Byte} : takeB8 bs = some (b, rest) ↔ bs = b :: rest := by
  cases bs <;> simp [takeB8]

theorem takeU16_eq_some_iff {bs rest : List Byte} {v : Word} : takeU16 bs = some (v, rest) ↔ bs = be16 v ++ rest := by
  refine ⟨fun h => ?_, fun h => h ▸ takeU16_be16 v rest⟩
  match bs, h with
  | a :: b :: bs, h =>
    obtain ⟨rfl, rfl⟩ : u16be a b = v ∧ bs = rest := by simpa [takeU16] using h
    simp

/-- The length field of a `seq` holds any 16-bit length, so what was read from it fits. -/
theorem takeSeq_eq_some_iff {bs s rest : List Byte} :
    takeSeq bs = some (s, rest) ↔ seqFits s = true ∧ bs = putSeq s ++ rest := by
  constructor
  · intro h
    obtain ⟨⟨len, mid⟩, hlen, hdata⟩ := Option.bind_eq_some_iff.mp h
    obtain rfl := takeU16_eq_some_iff.mp hlen
    obtain ⟨rfl, hs⟩ := takeExact_inv hdata
    have hlt := len.isLt
    have hfits : s.length ≤ seqMax := by rw [hs, seqMax]; omega
    exact ⟨by simpa [seqFits] using hfits, by simp [putSeq, hs]⟩
  · rintro ⟨hfits, rfl⟩
    exact takeSeq_putSeq s rest (by simpa [seqFits] using hfits)

/-- What `takeIds` can answer: the ids it took and the rest make up what it was given. -/
theorem takeIds_inv {n : Nat} {bs rest : List Byte} {ids : List Word} (h : takeIds n bs = some (ids, rest)) :
    bs = ids.flatMap be16 ++ rest ∧ ids.length = n := by
  induction n generalizing bs ids with
  | zero =>
    obtain ⟨rfl, rfl⟩ : [] = ids ∧ bs = rest := by simpa [takeIds] using h
    simp
  | succ n ih =>
    obtain ⟨⟨id, mid⟩, hid, h⟩ := Option.bind_eq_some_iff.mp h
    obtain ⟨⟨ids', rest'⟩, hids, h⟩ := Option.map_eq_some_iff.mp h
    obtain ⟨rfl, rfl⟩ : id :: ids' = ids ∧ rest' = rest := by simpa using h
    obtain rfl := takeU16_eq_some_iff.mp hid
    obtain ⟨rfl, rfl⟩ := ih hids
    simp

/-- The count field of an `idseq` holds any 8-bit count, so what was read from it fits. -/
theorem takeIdSeq_eq_some_iff {bs rest : List Byte} {ids : List Word} :
    takeIdSeq bs = some (ids, rest) ↔ idSeqFits ids = true ∧ bs = putIdSeq ids ++ rest := by
  constructor
  · intro h
    obtain ⟨⟨count, mid⟩, hcount, hdata⟩ := Option.bind_eq_some_iff.mp h
    obtain rfl := takeB8_eq_some_iff.mp hcount
    obtain ⟨rfl, hids⟩ := takeIds_inv hdata
    have hlt := count.isLt
    have hfits : ids.length ≤ idSeqMax := by rw [hids, idSeqMax]; omega
    exact ⟨by simpa [idSeqFits] using hfits, by simp [putIdSeq, hids]⟩
  · rintro ⟨hfits, rfl⟩
    exact takeIdSeq_putIdSeq ids rest (by simpa [idSeqFits] using hfits)

/-! ## Operand kinds and the form of each command (R72, R75) -/

/-- A way to serialise operands: what the reader takes is exactly what the writer puts for values in range. -/
structure OperandKind (α : Type) where
  take : List Byte → Option (α × List Byte)
  put : α → List Byte
  fits : α → Bool
  take_eq_some_iff : ∀ bs a rest, take bs = some (a, rest) ↔ fits a = true ∧ bs = put a ++ rest

namespace OperandKind

/-- No operand. -/
def none : OperandKind Unit where
  take bs := some ((), bs)
  put _ := []
  fits _ := true
  take_eq_some_iff bs a rest := by simp

/-- A `b8` operand. -/
def b8 : OperandKind Byte where
  take := takeB8
  put b := [b]
  fits _ := true
  take_eq_some_iff bs b rest := by simpa using takeB8_eq_some_iff

/-- A `u16` operand. -/
def u16 : OperandKind Word where
  take := takeU16
  put := be16
  fits _ := true
  take_eq_some_iff bs v rest := by simpa using takeU16_eq_some_iff

/-- A `seq` operand. -/
def seq : OperandKind (List Byte) where
  take := takeSeq
  put := putSeq
  fits := seqFits
  take_eq_some_iff _ _ _ := takeSeq_eq_some_iff

/-- An `idseq` operand. -/
def idSeq : OperandKind (List Word) where
  take := takeIdSeq
  put := putIdSeq
  fits := idSeqFits
  take_eq_some_iff _ _ _ := takeIdSeq_eq_some_iff

/-- Two operands in signature order (R70). -/
def both {α β : Type} (K : OperandKind α) (L : OperandKind β) : OperandKind (α × β) where
  take := takeBoth K.take L.take
  put p := K.put p.1 ++ L.put p.2
  fits p := K.fits p.1 && L.fits p.2
  take_eq_some_iff := by
    rintro bs ⟨a, b⟩ rest
    simp only [Bool.and_eq_true, List.append_assoc]
    constructor
    · intro h
      obtain ⟨mid, ha, hb⟩ := takeBoth_inv h
      obtain ⟨hfa, rfl⟩ := (K.take_eq_some_iff _ _ _).mp ha
      obtain ⟨hfb, rfl⟩ := (L.take_eq_some_iff _ _ _).mp hb
      exact ⟨⟨hfa, hfb⟩, rfl⟩
    · rintro ⟨⟨hfa, hfb⟩, rfl⟩
      exact takeBoth_some ((K.take_eq_some_iff _ _ _).mpr ⟨hfa, rfl⟩) ((L.take_eq_some_iff _ _ _).mpr ⟨hfb, rfl⟩)

end OperandKind

/-- The commands of one opcode: how their operands are serialised, and the command made of operand values. -/
structure CommandForm where
  Operands : Type
  kind : OperandKind Operands
  command : Operands → Instr

/-- The signature column of R75. It depends on the command's opcode alone, not on its operands. -/
def Instr.form : Instr → CommandForm
  | .nop => ⟨_, .none, fun _ => .nop⟩
  | .crcClr => ⟨_, .none, fun _ => .crcClr⟩
  | .crcFeed _ => ⟨_, .b8, .crcFeed⟩
  | .crcRead => ⟨_, .none, fun _ => .crcRead⟩
  | .crcBlock _ => ⟨_, .seq, .crcBlock⟩
  | .crcCalc _ => ⟨_, .seq, .crcCalc⟩
  | .crcFcs _ => ⟨_, .seq, .crcFcs⟩
  | .crcCheck _ => ⟨_, .seq, .crcCheck⟩
  | .encEsc _ => ⟨_, .b8, .encEsc⟩
  | .encStuff _ => ⟨_, .seq, .encStuff⟩
  | .encFrame _ _ => ⟨_, .both .b8 .seq, fun p => .encFrame p.1 p.2⟩
  | .rxStart => ⟨_, .none, fun _ => .rxStart⟩
  | .rxByte _ => ⟨_, .b8, .rxByte⟩
  | .rxTimeout => ⟨_, .none, fun _ => .rxTimeout⟩
  | .rxEos => ⟨_, .none, fun _ => .rxEos⟩
  | .rxRead => ⟨_, .none, fun _ => .rxRead⟩
  | .rxDecode _ => ⟨_, .seq, .rxDecode⟩
  | .decUnstuff _ => ⟨_, .seq, .decUnstuff⟩
  | .decBody _ => ⟨_, .seq, .decBody⟩
  | .numFields _ => ⟨_, .b8, .numFields⟩
  | .numMant _ => ⟨_, .seq, .numMant⟩
  | .numValue _ _ => ⟨_, .both .b8 .seq, fun p => .numValue p.1 p.2⟩
  | .numSingle _ _ => ⟨_, .both .u16 .seq, fun p => .numSingle p.1 p.2⟩
  | .numMulti _ _ => ⟨_, .both .idSeq .seq, fun p => .numMulti p.1 p.2⟩
  | .ctlWr _ => ⟨_, .b8, .ctlWr⟩
  | .ctlRd => ⟨_, .none, fun _ => .ctlRd⟩

/-- A command is of its own form. -/
theorem Instr.exists_form_command_eq (i : Instr) : ∃ a, i.form.command a = i := by
  cases i with
  | nop | crcClr | crcRead | rxStart | rxTimeout | rxEos | rxRead | ctlRd => exact ⟨(), rfl⟩
  | encFrame a p | numValue a p | numSingle a p | numMulti a p => exact ⟨(a, p), rfl⟩
  | _ a => exact ⟨a, rfl⟩

/-- An opcode byte is followed by the operands of its form (R73). -/
theorem decode_opcode_cons (i : Instr) (bs : List Byte) :
    decode (i.opcode :: bs) = .ofOperands i.form.command (i.form.kind.take bs) := by
  cases i <;> rfl

theorem encode_form_command (i : Instr) (a : i.form.Operands) : encode (i.form.command a) = i.opcode :: i.form.kind.put a := by
  cases i <;> rfl

theorem wellFormed_form_command (i : Instr) (a : i.form.Operands) : (i.form.command a).wellFormed = i.form.kind.fits a := by
  cases i <;> rfl

/-! ## Decoding and serialising invert each other (R73, R77) -/

/-- After a command's opcode, the decoder finds exactly the well-formed commands of its form. -/
theorem decode_opcode_cons_eq_command_iff {i j : Instr} {bs rest : List Byte} :
    decode (i.opcode :: bs) = .command j rest ↔
      ∃ a, j = i.form.command a ∧ j.wellFormed = true ∧ i.opcode :: bs = encode j ++ rest := by
  rw [decode_opcode_cons]
  constructor
  · intro h
    obtain ⟨a, htake, rfl⟩ := Decoded.ofOperands_inv h
    obtain ⟨hfits, rfl⟩ := (i.form.kind.take_eq_some_iff _ _ _).mp htake
    exact ⟨a, rfl, by rwa [wellFormed_form_command], by rw [encode_form_command, List.cons_append]⟩
  · rintro ⟨a, rfl, hwf, henc⟩
    rw [wellFormed_form_command] at hwf
    rw [encode_form_command, List.cons_append] at henc
    rw [(i.form.kind.take_eq_some_iff _ _ _).mpr ⟨hwf, List.tail_eq_of_cons_eq henc⟩, Decoded.ofOperands_some]

/-- Settles O1: the reader of `i`'s form takes what its writer put. -/
theorem decodeInvertsEncode : Obligations.DecodeInvertsEncode := by
  intro i rest hwf
  obtain ⟨a, ha⟩ := i.exists_form_command_eq
  exact decode_opcode_cons_eq_command_iff.mpr ⟨a, ha.symm, hwf, rfl⟩

theorem not_unassignedOpcode_opcode (i : Instr) : ¬ unassignedOpcode i.opcode := by
  unfold unassignedOpcode
  cases i <;> (dsimp only [Instr.opcode]; decide)

/-- Every byte is the opcode of a command or one of R76's bytes, and the decoder tells which. -/
theorem opcode_cases (op : Byte) (bs : List Byte) :
    (∃ i : Instr, i.opcode = op) ∨ (unassignedOpcode op ∧ decode (op :: bs) = .illegal op bs) := by
  dsimp only [decode]
  split
  · exact .inl ⟨.nop, rfl⟩
  · exact .inl ⟨.crcClr, rfl⟩
  · exact .inl ⟨.crcFeed 0, rfl⟩
  · exact .inl ⟨.crcRead, rfl⟩
  · exact .inl ⟨.crcBlock [], rfl⟩
  · exact .inl ⟨.crcCalc [], rfl⟩
  · exact .inl ⟨.crcFcs [], rfl⟩
  · exact .inl ⟨.crcCheck [], rfl⟩
  · exact .inl ⟨.encEsc 0, rfl⟩
  · exact .inl ⟨.encStuff [], rfl⟩
  · exact .inl ⟨.encFrame 0 [], rfl⟩
  · exact .inl ⟨.rxStart, rfl⟩
  · exact .inl ⟨.rxByte 0, rfl⟩
  · exact .inl ⟨.rxTimeout, rfl⟩
  · exact .inl ⟨.rxEos, rfl⟩
  · exact .inl ⟨.rxRead, rfl⟩
  · exact .inl ⟨.rxDecode [], rfl⟩
  · exact .inl ⟨.decUnstuff [], rfl⟩
  · exact .inl ⟨.decBody [], rfl⟩
  · exact .inl ⟨.numFields 0, rfl⟩
  · exact .inl ⟨.numMant [], rfl⟩
  · exact .inl ⟨.numValue 0 [], rfl⟩
  · exact .inl ⟨.numSingle 0 [], rfl⟩
  · exact .inl ⟨.numMulti [] [], rfl⟩
  · exact .inl ⟨.ctlWr 0, rfl⟩
  · exact .inl ⟨.ctlRd, rfl⟩
  · refine .inr ⟨?_, rfl⟩
    unfold unassignedOpcode
    simp only [imp_false] at *
    bv_omega

/-- Settles O2: a byte that begins a command is the opcode of its form. -/
theorem encodeInvertsDecode : Obligations.EncodeInvertsDecode := by
  intro bs j rest h
  cases bs with
  | nil => simp at h
  | cons op bs =>
    obtain ⟨i, rfl⟩ | ⟨_, hill⟩ := opcode_cases op bs
    · obtain ⟨_, _, hwf, henc⟩ := decode_opcode_cons_eq_command_iff.mp h
      exact ⟨hwf, henc⟩
    · simp [hill] at h

/-- What the decoder calls illegal begins with one of R76's bytes. -/
theorem decode_illegal_inv {bs rest : List Byte} {op : Byte} (h : decode bs = .illegal op rest) :
    unassignedOpcode op ∧ bs = op :: rest := by
  cases bs with
  | nil => simp at h
  | cons b bs =>
    obtain ⟨i, rfl⟩ | ⟨hun, hill⟩ := opcode_cases b bs
    · rw [decode_opcode_cons] at h
      exact absurd h (Decoded.ofOperands_ne_illegal _ _ _ _)
    · obtain ⟨rfl, rfl⟩ : b = op ∧ bs = rest := by simpa [hill] using h
      exact ⟨hun, rfl⟩

/-- A proper part of a command is no command: the command would otherwise decode to the part's command too (R77). -/
theorem decode_eq_incomplete_of_encode_eq_append {i : Instr} {part missing : List Byte} (hwf : i.wellFormed = true)
    (henc : encode i = part ++ missing) (hmissing : missing ≠ []) : decode part = .incomplete := by
  cases hd : decode part with
  | incomplete => rfl
  | illegal op rest =>
    obtain ⟨hun, rfl⟩ := decode_illegal_inv hd
    obtain rfl : i.opcode = op := List.head_eq_of_cons_eq henc
    exact absurd hun (not_unassignedOpcode_opcode i)
  | command j rest =>
    obtain ⟨hj, rfl⟩ := encodeInvertsDecode _ _ _ hd
    have whole : decode (encode i) = .command i [] := by simpa using decodeInvertsEncode i [] hwf
    have again : decode (encode i) = .command j (rest ++ missing) := by
      rw [henc, List.append_assoc]
      exact decodeInvertsEncode j _ hj
    obtain ⟨_, hnil⟩ : i = j ∧ [] = rest ++ missing := by simpa using whole.symm.trans again
    exact absurd (List.append_eq_nil_iff.mp hnil.symm).2 hmissing

/-! ## Steps on the port (R76, R77) -/

namespace Machine

theorem step_of_command {s : State} {i : Instr} {rest : List Byte} (hrst : s.rst = false)
    (h : decode s.cmd = .command i rest) : step s = exec i (s.setCmd rest) := by
  simp [step, hrst, h]

theorem step_of_illegal {s : State} {op : Byte} {rest : List Byte} (hrst : s.rst = false)
    (h : decode s.cmd = .illegal op rest) : step s = .next ((s.setCmd rest).setResp { code := .illegalCmd }) := by
  simp [step, hrst, h]

theorem step_of_incomplete {s : State} (hrst : s.rst = false) (h : decode s.cmd = .incomplete) : step s = .next s := by
  simp [step, hrst, h]

/-- Settles O5: the part decodes to no command, so the step waits. -/
theorem incompleteCommandIssuesNothing : Obligations.IncompleteCommandIssuesNothing := by
  rintro i part missing s hwf henc hmissing hrst rfl
  exact step_of_incomplete hrst (decode_eq_incomplete_of_encode_eq_append hwf henc hmissing)

/-- Settles O3: each stream is the serialisation of its command, with what follows it. -/
theorem writtenOutCommandsDecode : Obligations.WrittenOutCommandsDecode :=
  ⟨decodeInvertsEncode (.encFrame 0x80 [0x3F, 0x10, 0x01, 0x00, 0x3C]) [] rfl,
    decodeInvertsEncode (.crcCheck [0x3F, 0x10, 0x01, 0x00, 0x3C, 0xB2, 0x5F]) [] rfl,
    decodeInvertsEncode (.numSingle 0x003D [0x3F]) [] rfl,
    decodeInvertsEncode (.numMulti [0x003C, 0x0044] []) [0x41] rfl,
    decodeInvertsEncode (.rxByte 0x40) [0x24] rfl⟩

/-- Settles O4: R76's bytes are the opcodes of no command, and the decoder calls exactly those illegal. -/
theorem unassignedOpcodeIsIllegalCommand : Obligations.UnassignedOpcodeIsIllegalCommand := by
  constructor
  · intro op s rest hun hrst hcmd
    obtain ⟨i, rfl⟩ | ⟨_, hill⟩ := opcode_cases op rest
    · exact absurd hun (not_unassignedOpcode_opcode i)
    · exact step_of_illegal hrst (hcmd ▸ hill)
  · intro op hassigned
    exact (opcode_cases op []).resolve_right fun h => hassigned h.1

/-- Settles O6: the reset input low, the step is what the decoder says. -/
theorem stepRunsTheDecodedCommand : Obligations.StepRunsTheDecodedCommand := fun _ _ _ hrst h => step_of_command hrst h

end Machine

end Sys2Proof
end

section
/-! PROOFS. The CRC engine (40_crc.md R110 to R119). A register and a byte sequence are polynomials over GF(2), each step
of the engine keeps the register the remainder of the bits fed so far modulo `G(x)`, and a register is known by its
polynomial: so R111's and R112's laws of `crc16` are facts about remainders. -/

namespace Sys2Proof.Machine

open Polynomial

/-! ## The bytes of a register -/

/-- The high byte shifted over the low byte (R11). -/
theorem u16be_eq_or (a b : Byte) : u16be a b = (a.zeroExtend 16 <<< 8) ||| b.zeroExtend 16 := by
  simpa [u16be] using BitVec.setWidth_append_eq_shiftLeft_setWidth_or (b := a) (b' := b) (w'' := 16)

/-- Shifting a byte in keeps the low byte of the register (R111). -/
theorem u16be_extractLsb' (r : Word) (b : Byte) : u16be (r.extractLsb' 0 8) b = (r <<< 8) ||| b.zeroExtend 16 := by
  have hlow : (r.extractLsb' 0 8).zeroExtend 16 <<< 8 = r <<< 8 := by
    ext i hi
    have hbyte : i - 8 < 8 := by omega
    simp [hbyte, BitVec.getLsbD_eq_getElem (x := r) (i := i - 8) (by omega)]
  rw [u16be_eq_or, hlow]

/-! ## Bits as coefficients -/

/-- A bit as a constant polynomial. -/
noncomputable def gfBit (b : Bool) : (ZMod 2)[X] := C (if b then 1 else 0)

@[simp] theorem gfBit_false : gfBit false = 0 := by simp [gfBit]

@[simp] theorem gfBit_true : gfBit true = 1 := by simp [gfBit]

theorem gfBit_xor (b c : Bool) : gfBit (b ^^ c) = gfBit b + gfBit c := by
  cases b <;> cases c <;> simp [CharTwo.add_self_eq_zero]

@[simp] theorem gfPoly_nil : gfPoly [] = 0 := rfl

theorem gfPoly_concat (bits : List Bool) (b : Bool) : gfPoly (bits ++ [b]) = gfPoly bits * X + gfBit b := by
  cases b <;> simp [gfPoly]

theorem gfPoly_append (bits bits' : List Bool) : gfPoly (bits ++ bits') = gfPoly bits * X ^ bits'.length + gfPoly bits' := by
  induction bits' using List.reverseRecOn with
  | nil => simp
  | append_singleton bits' b ih =>
    rw [← List.append_assoc, gfPoly_concat, gfPoly_concat, ih, List.length_append, List.length_singleton]
    ring

@[simp] theorem gfPoly_cons (b : Bool) (bits : List Bool) :
    gfPoly (b :: bits) = gfBit b * X ^ bits.length + gfPoly bits := by
  have hb : gfPoly [b] = gfBit b := by simpa using gfPoly_concat [] b
  rw [← hb, ← gfPoly_append, List.singleton_append]

/-! ## Byte sequences and registers as polynomials -/

/-- The message polynomial `S(x)` of R111: bit 7 of the first byte is the highest coefficient. -/
noncomputable def messagePoly (s : List Byte) : (ZMod 2)[X] := gfPoly (s.flatMap msbFirst)

/-- The polynomial of a register (R110). -/
noncomputable def wordPoly (r : Word) : (ZMod 2)[X] := messagePoly (be16 r)

@[simp] theorem length_flatMap_msbFirst (s : List Byte) : (s.flatMap msbFirst).length = 8 * s.length := by
  induction s with
  | nil => rfl
  | cons b s ih => simp [msbFirst, ih]; omega

theorem messagePoly_append (s t : List Byte) :
    messagePoly (s ++ t) = messagePoly s * X ^ (8 * t.length) + messagePoly t := by
  simp only [messagePoly, List.flatMap_append, gfPoly_append, length_flatMap_msbFirst]

/-- Bit `i` of the register is the coefficient of `x^i`. -/
theorem wordPoly_eq_sum (r : Word) : wordPoly r = ∑ i : Fin 16, gfBit (r.getLsbD i) * X ^ (i : ℕ) := by
  simp [wordPoly, messagePoly, be16, msbFirst, Fin.sum_univ_succ]
  ring

theorem degree_wordPoly_lt (r : Word) : (wordPoly r).degree < 16 := by
  rw [wordPoly_eq_sum]
  exact degree_sum_fin_lt _

theorem coeff_wordPoly (r : Word) (i : Fin 16) : (wordPoly r).coeff i = if r.getLsbD i then 1 else 0 := by
  simp only [wordPoly_eq_sum, gfBit, finsetSum_coeff, coeff_C_mul_X_pow, Fin.val_inj, Finset.sum_ite_eq,
    Finset.mem_univ, if_true]

theorem wordPoly_injective : Function.Injective wordPoly := by
  intro r q h
  refine BitVec.eq_of_getLsbD_eq fun i hi => ?_
  have hcoeff : (if r.getLsbD i then 1 else 0 : ZMod 2) = if q.getLsbD i then 1 else 0 := by
    rw [← coeff_wordPoly r ⟨i, hi⟩, h, coeff_wordPoly q ⟨i, hi⟩]
  cases hr : r.getLsbD i <;> cases hq : q.getLsbD i <;> simp_all

theorem wordPoly_xor (r q : Word) : wordPoly (r ^^^ q) = wordPoly r + wordPoly q := by
  simp only [wordPoly_eq_sum, BitVec.getLsbD_xor, gfBit_xor, add_mul, Finset.sum_add_distrib]

/-! ## The engine divides (R110, R111) -/

theorem crcGenerator_eq : crcGenerator = X ^ 16 + wordPoly crcPoly := by
  simp [crcGenerator, wordPoly, messagePoly, crcPoly, be16, msbFirst, add_assoc]

theorem monic_crcGenerator : crcGenerator.Monic := by
  rw [crcGenerator_eq]
  exact monic_X_pow_add (degree_wordPoly_lt crcPoly)

theorem degree_crcGenerator : crcGenerator.degree = 16 := by
  have hlow : (wordPoly crcPoly).degree < (X ^ 16 : (ZMod 2)[X]).degree := by
    simpa using degree_wordPoly_lt crcPoly
  rw [crcGenerator_eq, degree_add_eq_left_of_degree_lt hlow, degree_X_pow]
  rfl

/-- Shifting a message bit in at bit 0 pushes bit 15 out as the `x^16` term (R110). -/
theorem wordPoly_shift (r : Word) (b : Bool) :
    gfBit (r.getLsbD 15) * X ^ 16 + wordPoly ((r <<< 1) ||| (if b then 1 else 0)) = wordPoly r * X + gfBit b := by
  have hbits : r.getLsbD 15 :: (be16 ((r <<< 1) ||| (if b then 1 else 0))).flatMap msbFirst =
      (be16 r).flatMap msbFirst ++ [b] := by
    cases b <;> simp [be16, msbFirst]
  have hpoly := congrArg gfPoly hbits
  rwa [gfPoly_concat, gfPoly_cons, length_flatMap_msbFirst] at hpoly

/-- One step multiplies the register by `x` and adds the message bit; taking off `G(x)` when bit 15 was set reduces it. -/
theorem wordPoly_crcStep1 (r : Word) (b : Bool) :
    wordPoly (crcStep1 r b) = (wordPoly r * X + gfBit b) %ₘ crcGenerator := by
  have hdeg : (wordPoly (crcStep1 r b)).degree < crcGenerator.degree := by
    rw [degree_crcGenerator]; exact degree_wordPoly_lt _
  refine (div_modByMonic_unique (gfBit (r.getLsbD 15)) _ monic_crcGenerator ⟨?_, hdeg⟩).2.symm
  rw [← wordPoly_shift, crcGenerator_eq, crcStep1]
  cases r.getLsbD 15
  · simp
  · simp only [wordPoly_xor, gfBit_true, if_true]
    linear_combination CharTwo.add_self_eq_zero (wordPoly crcPoly)

/-- Fed from zero, the register is the remainder of the bits so far. -/
theorem wordPoly_foldl_crcStep1 (bits : List Bool) :
    wordPoly (bits.foldl crcStep1 0x0000) = gfPoly bits %ₘ crcGenerator := by
  induction bits using List.reverseRecOn with
  | nil => simp [wordPoly_eq_sum]
  | append_singleton bits b ih =>
    rw [List.foldl_append, List.foldl_cons, List.foldl_nil, gfPoly_concat, wordPoly_crcStep1, ih]
    refine modByMonic_eq_of_dvd_sub monic_crcGenerator ?_
    rw [add_sub_add_right_eq_sub, ← sub_mul]
    exact (dvd_modByMonic_sub _ _).mul_right X

/-- The engine takes the bits of a sequence one by one (R110). -/
theorem crc16_eq_foldl_crcStep1 (s : List Byte) : crc16 s = (s.flatMap msbFirst).foldl crcStep1 0x0000 :=
  List.foldl_flatMap.symm

theorem wordPoly_crc16 (s : List Byte) : wordPoly (crc16 s) = messagePoly s %ₘ crcGenerator := by
  rw [crc16_eq_foldl_crcStep1, wordPoly_foldl_crcStep1, messagePoly]

theorem wordPoly_eq_zero_iff (r : Word) : wordPoly r = 0 ↔ r = 0x0000 :=
  wordPoly_injective.eq_iff' (by simp [wordPoly_eq_sum])

/-- Settles O26: the register is the remainder, and only the zero register has the zero polynomial. -/
theorem crcIsPolynomialRemainder : Obligations.CrcIsPolynomialRemainder := by
  refine fun s => ⟨wordPoly_crc16 s, ?_⟩
  rw [← wordPoly_eq_zero_iff, wordPoly_crc16]
  exact modByMonic_eq_zero_iff_dvd monic_crcGenerator

/-! ## The laws of `crc16` (R111, R112) -/

/-- The CRC is linear: a sum of messages has the sum of their remainders. -/
theorem crc16_eq_xor {s t u : List Byte} (h : messagePoly s = messagePoly t + messagePoly u) :
    crc16 s = crc16 t ^^^ crc16 u := by
  apply wordPoly_injective
  simp only [wordPoly_xor, wordPoly_crc16, h, add_modByMonic]

/-- Fewer than 17 bits never reach bit 16 (R111): they are their own remainder. -/
@[simp] theorem crc16_be16 (w : Word) : crc16 (be16 w) = w := by
  apply wordPoly_injective
  rw [wordPoly_crc16, ← wordPoly, modByMonic_eq_self_iff monic_crcGenerator, degree_crcGenerator]
  exact degree_wordPoly_lt w

theorem crc16_pair (a b : Byte) : crc16 [a, b] = u16be a b := by
  rw [← be16_u16be, crc16_be16]

/-- A sequence is itself with its last two bytes zero, plus those two bytes. -/
theorem crc16_append_be16 (s : List Byte) (w : Word) : crc16 (s ++ be16 w) = fcs s ^^^ w := by
  have hsum : messagePoly (s ++ be16 w) = messagePoly (s ++ [0x00, 0x00]) + messagePoly (be16 w) := by
    have hzeros : messagePoly [0x00#8, 0x00#8] = 0 := by simp [messagePoly, msbFirst]
    simp [messagePoly_append, hzeros]
  rw [crc16_eq_xor hsum, crc16_be16, fcs]

theorem crcFold_crc16 (s t : List Byte) : crcFold (crc16 s) t = crc16 (s ++ t) := (crcFold_append 0x0000 s t).symm

theorem crcStep8_crc16 (s : List Byte) (b : Byte) : crcStep8 (crc16 s) b = crc16 (s ++ [b]) := crcFold_crc16 s [b]

/-- Settles O29: the check sequence cancels itself. -/
theorem frameCheckSequenceSelfChecks : Obligations.FrameCheckSequenceSelfChecks := fun p =>
  ⟨rfl, (crc16_append_be16 p (fcs p)).trans BitVec.xor_self⟩

/-- A zero byte fed to the cleared register leaves it cleared (R111). -/
theorem crc16_zero_cons (s : List Byte) : crc16 (0x00 :: s) = crc16 s := by
  have hzero : crcStep8 0x0000 0x00 = 0x0000 := by decide
  rw [crc16, crcFold_cons, hzero, crc16]

theorem crc16_singleton (a : Byte) : crc16 [a] = a.zeroExtend 16 := by
  rw [← crc16_zero_cons, crc16_pair, u16be_eq_or]
  simp

/-- Settles O28: short inputs are their own remainders, the others are facts of the fold. -/
theorem crcSequenceLaws : Obligations.CrcSequenceLaws :=
  ⟨rfl, crc16_singleton, crc16_pair, crc16_zero_cons, crcFold_crc16⟩

/-- R111's table holds the frame check sequences of the one-byte payloads. -/
theorem crcTable_eq_fcs (h : Byte) : crcTable h = fcs [h] :=
  calc crcTable h
    _ = crcStep8 (crc16 [h, 0x00]) 0x00 := by rw [crcTable, crc16_pair, u16be_eq_or]; simp
    _ = fcs [h] := crcStep8_crc16 [h, 0x00] 0x00

/-- The register and the byte fed are a three-byte message, of which only the first byte is reduced. -/
theorem crcStep8_u16be (h l b : Byte) : crcStep8 (u16be h l) b = u16be l b ^^^ crcTable h :=
  calc crcStep8 (u16be h l) b
    _ = crc16 ([h, l] ++ [b]) := by rw [← crc16_pair, crcStep8_crc16]
    _ = crc16 ([h] ++ be16 (u16be l b)) := by rw [be16_u16be]; rfl
    _ = u16be l b ^^^ crcTable h := by rw [crc16_append_be16, crcTable_eq_fcs, BitVec.xor_comm]

/-- Settles O27: the register is its two bytes, and shifting it keeps the low one. -/
theorem crcByteParallelForm : Obligations.CrcByteParallelForm := by
  refine ⟨fun r b => ?_, by decide, by decide, by decide, by decide, by decide⟩
  rw [← u16be_extractLsb', ← crcStep8_u16be, u16be_be16]

/-! ## The commands (R113 to R119) -/

/-- Ending a command with `v` in `CRC` changes that register and the response port alone. -/
theorem reply_setCrc (r : Response) (s : State) (v : Word) :
    reply r (s.setCrc v) = .next { s with crc := v, resp := some r } := rfl

/-- A command on a byte sequence is its opcode, the length, the bytes (R73). -/
theorem encode_seq {i : Instr} {data : List Byte} (h : i.operandBytes = putSeq data) :
    encode i = i.opcode :: (be16 (BitVec.ofNat 16 data.length) ++ data) := by
  rw [encode, h, putSeq]

/-- Settles O24: the bytes answered are those that cancel the check sequence. -/
theorem crcFcsGivesCheckSequence : Obligations.CrcFcsGivesCheckSequence := fun p =>
  ⟨encode_seq rfl, fun s => ⟨fcs p, rfl, reply_setCrc _ s _, (frameCheckSequenceSelfChecks p).2⟩⟩

/-- Settles O19: the value left is zero. -/
theorem crcClrClearsAccumulator : Obligations.CrcClrClearsAccumulator := ⟨rfl, fun s => reply_setCrc _ s _⟩

/-- Settles O20: the value left is one step on. -/
theorem crcFeedStepsAccumulator : Obligations.CrcFeedStepsAccumulator := fun _ => ⟨rfl, fun s => reply_setCrc _ s _⟩

/-- Settles O21: only the response is written. -/
theorem crcReadReportsAccumulator : Obligations.CrcReadReportsAccumulator := ⟨rfl, fun s => reply_eq _ s⟩

/-- Settles O22: the value left is the fold from `CRC`. -/
theorem crcBlockContinuesAccumulator : Obligations.CrcBlockContinuesAccumulator := fun _ =>
  ⟨encode_seq rfl, fun s => reply_setCrc _ s _⟩

/-- Settles O23: the value left is the fold from zero. -/
theorem crcCalcComputesFromZero : Obligations.CrcCalcComputesFromZero := fun _ =>
  ⟨encode_seq rfl, fun s => reply_setCrc _ s _⟩

/-- Settles O25: the value left is the fold from zero, and `ok` is whether it is zero. -/
theorem crcCheckTestsForZero : Obligations.CrcCheckTestsForZero := fun _ =>
  ⟨encode_seq rfl, fun s => reply_setCrc _ s _⟩

end Sys2Proof.Machine
end

section
/-! PROOFS. The frame encoder (41_frame_encode.md R130 to R135). An escaped byte is the byte itself outside the escape set, and
the introducer with the inverted byte inside it; so what is escaped holds no marker and no terminator, reads back without a
warning, and a frame's payload completes with its check sequence, delivered. -/

namespace Sys2Proof.Machine

/-! ## One byte (R130) -/

theorem inEscapeSet_iff (b : Byte) : inEscapeSet b = true ↔ b ∈ ([0x06, 0x0D, 0x1B, 0x40, 0x80] : List Byte) := by
  simp [inEscapeSet, or_assoc]

theorem escapedByte_eq_esc : escapedByte = esc := by
  funext b
  simp only [escapedByte, esc, inEscapeSet_iff, escIntro]

/-- Outside the escape set a byte is none of the bytes the receiver looks for. -/
theorem ne_of_inEscapeSet_eq_false {b : Byte} (h : inEscapeSet b = false) :
    b ≠ 0x06 ∧ b ≠ 0x0D ∧ b ≠ escIntro ∧ b ≠ 0x40 ∧ b ≠ 0x80 := by
  simpa [inEscapeSet, escIntro, and_assoc] using h

/-- Inverting a byte of the escape set gives a byte outside it (R135). -/
theorem inEscapeSet_invert {b : Byte} (h : inEscapeSet b = true) : inEscapeSet (b ^^^ 0xFF) = false := by
  rw [inEscapeSet_iff] at h
  simp only [List.mem_cons, List.not_mem_nil, or_false] at h
  rcases h with rfl | rfl | rfl | rfl | rfl <;> rfl

@[simp] theorem invert_invert (b : Byte) : b ^^^ 0xFF#8 ^^^ 0xFF#8 = b := by
  rw [BitVec.xor_assoc, BitVec.xor_self, BitVec.xor_zero]

theorem length_esc (b : Byte) : (esc b).length = 1 + (if inEscapeSet b then 1 else 0) := by
  obtain ⟨hb, he⟩ | ⟨hb, he⟩ := esc_cases b <;> simp [hb, he]

/-- An escaped byte holds no byte of the escape set but the introducer (R135). -/
theorem ne_of_mem_esc {b c : Byte} (h : c ∈ esc b) : c ≠ 0x06 ∧ c ≠ 0x0D ∧ c ≠ 0x40 ∧ c ≠ 0x80 := by
  have plain {c : Byte} (hc : inEscapeSet c = false) : c ≠ 0x06 ∧ c ≠ 0x0D ∧ c ≠ 0x40 ∧ c ≠ 0x80 := by
    obtain ⟨h06, h0D, _, h40, h80⟩ := ne_of_inEscapeSet_eq_false hc
    exact ⟨h06, h0D, h40, h80⟩
  obtain ⟨hb, he⟩ | ⟨hb, he⟩ := esc_cases b
  · obtain rfl | rfl : c = escIntro ∨ c = b ^^^ 0xFF := by simpa [he] using h
    · decide
    · exact plain (inEscapeSet_invert hb)
  · obtain rfl : c = b := by simpa [he] using h
    exact plain hb

/-! ## A sequence (R131, R135) -/

/-- Each byte of the escape set adds one (R133). -/
theorem length_stuff (data : List Byte) : (stuff data).length = data.length + data.countP inEscapeSet := by
  induction data with
  | nil => rfl
  | cons b data ih =>
    rw [stuff_cons, List.length_append, length_esc, ih, List.length_cons, List.countP_cons]
    omega

/-- An escaped byte is one unit of the unescaper's scan, which gives it back without a warning. -/
theorem unstuff_esc_append (b : Byte) (rest : List Byte) :
    unstuff (esc b ++ rest) = (b :: (unstuff rest).1, (unstuff rest).2) := by
  obtain ⟨hb, he⟩ | ⟨hb, he⟩ := esc_cases b
  · rw [he, List.cons_append, List.singleton_append, unstuff_pair]
    simp [hb]
  · obtain ⟨_, _, hintro, _⟩ := ne_of_inEscapeSet_eq_false hb
    rw [he, List.singleton_append, unstuff_literal b rest hintro]

@[simp] theorem unstuff_stuff (data : List Byte) : unstuff (stuff data) = (data, false) := by
  induction data with
  | nil => rfl
  | cons b data ih => rw [stuff_cons, unstuff_esc_append, ih]

theorem stuff_injective : Function.Injective stuff := by
  intro s t h
  have hunstuff := congrArg unstuff h
  simpa using hunstuff

theorem ne_of_mem_stuff {data : List Byte} {c : Byte} (h : c ∈ stuff data) :
    c ≠ 0x06 ∧ c ≠ 0x0D ∧ c ≠ 0x40 ∧ c ≠ 0x80 := by
  obtain ⟨b, _, hc⟩ := List.mem_flatMap.mp h
  exact ne_of_mem_esc hc

theorem terminator_notMem_stuff (data : List Byte) : terminator ∉ stuff data := by
  intro h
  obtain ⟨_, h0D, _⟩ := ne_of_mem_stuff h
  exact h0D rfl

theorem startMarker_notMem_stuff (data : List Byte) : startMarker ∉ stuff data := by
  intro h
  obtain ⟨_, _, h40, _⟩ := ne_of_mem_stuff h
  exact h40 rfl

/-- Wherever the introducer stands in an escaped sequence, an inverted byte of the escape set follows it (R135). -/
theorem stuff_eq_append_escIntro {data before after : List Byte} (h : stuff data = before ++ escIntro :: after) :
    ∃ c rest, after = c :: rest ∧ c ≠ escIntro ∧ inEscapeSet (c ^^^ 0xFF) = true := by
  induction data generalizing before with
  | nil => simp at h
  | cons b data ih =>
    rw [stuff_cons] at h
    obtain ⟨hb, he⟩ | ⟨hb, he⟩ := esc_cases b <;> rw [he] at h
    · obtain ⟨_, _, hne, _⟩ := ne_of_inEscapeSet_eq_false (inEscapeSet_invert hb)
      match before, h with
      | [], h =>
        obtain rfl : (b ^^^ 0xFF) :: stuff data = after := List.tail_eq_of_cons_eq h
        exact ⟨_, _, rfl, hne, by simpa using hb⟩
      | [_], h => exact absurd (List.head_eq_of_cons_eq (List.tail_eq_of_cons_eq h)) hne
      | _ :: _ :: _, h => exact ih (List.tail_eq_of_cons_eq (List.tail_eq_of_cons_eq h))
    · obtain ⟨_, _, hne, _⟩ := ne_of_inEscapeSet_eq_false hb
      match before, h with
      | [], h => exact absurd (List.head_eq_of_cons_eq h) hne
      | _ :: _, h => exact ih (List.tail_eq_of_cons_eq h)

/-! ## A frame (R131, R84) -/

/-- Everything of a frame before its terminator. -/
theorem frame_eq_append (pfx : Byte) (p : List Byte) : frame pfx p = (pfx :: stuff (withFcs p)) ++ [terminator] := rfl

theorem length_frame (pfx : Byte) (p : List Byte) :
    (frame pfx p).length = 2 + (p.length + 2) + (withFcs p).countP inEscapeSet := by
  rw [frame_eq_append, List.length_append, List.length_cons, length_stuff, withFcs, List.length_append, be16_length,
    List.length_singleton]
  omega

/-- Settles O33: the scan takes the escaped bytes unit by unit, so it has a left inverse. -/
theorem unstuffInvertsStuff : Obligations.UnstuffInvertsStuff := ⟨unstuff_stuff, stuff_injective⟩

/-- Settles O34: what holds of each escaped byte holds of the sequence, and the address byte is no terminator. -/
theorem stuffedBytesAreTransparent : Obligations.StuffedBytesAreTransparent := by
  refine ⟨fun _ _ => ne_of_mem_stuff, fun _ _ _ => stuff_eq_append_escIntro, fun pfx p hpfx => ?_⟩
  rw [frame_eq_append, List.dropLast_concat, List.getLast?_concat]
  exact ⟨List.not_mem_cons_of_ne_of_not_mem hpfx.symm (terminator_notMem_stuff _), rfl⟩

/-! ## The commands (R132 to R134) -/

/-- The statements count the bytes of the escape set as members of a list. -/
theorem countP_inEscapeSet (data : List Byte) :
    data.countP inEscapeSet = data.countP (fun b => b ∈ ([0x06, 0x0D, 0x1B, 0x40, 0x80] : List Byte)) :=
  List.countP_congr fun b _ => by rw [inEscapeSet_iff, decide_eq_true_iff]

/-- Settles O31: escaping adds one for each byte of the escape set, and only the response is written. -/
theorem encStuffEscapesEachByte : Obligations.EncStuffEscapesEachByte := by
  intro data
  rw [escapedByte_eq_esc, ← countP_inEscapeSet]
  exact ⟨encode_seq rfl, fun s => reply_eq _ s, length_stuff data⟩

/-- Settles O32: the frame answered is R131's, and only the response is written. -/
theorem encFrameBuildsTheFrame : Obligations.EncFrameBuildsTheFrame := by
  intro pfx p
  rw [escapedByte_eq_esc, ← countP_inEscapeSet]
  exact ⟨rfl, frame pfx p, rfl, fun s => reply_eq _ s, length_frame pfx p⟩

/-- Settles O30: the byte answered is R130's, and only the response is written. -/
theorem encEscEscapesTheFiveBytes : Obligations.EncEscEscapesTheFiveBytes := by
  intro b
  rw [escapedByte_eq_esc]
  exact ⟨rfl, fun s => reply_eq _ s⟩

end Sys2Proof.Machine
end

section
/-! PROOFS. Frames in the receiver (41_frame_encode.md R135, 42_frame_decode.md R154, R157, R161). The bytes that a decode takes
without an event are followed on `RXS` and `RXBUF` alone; then a frame's content is such a run of bytes, and its terminator
is the one byte that completes it. -/

namespace Sys2Proof.Machine

/-! ## Bytes without an event (R154) -/

/-- One byte that neither completes nor overflows a frame: the receive state and the buffer after it. -/
def receiveByte (max : Option Nat) (c : RxState × List Byte) (b : Byte) : Option (RxState × List Byte) :=
  match rxStep max c.1 c.2 b with
  | (st, buf, .none) => some (st, buf)
  | (_, _, .frame _) => none
  | (_, _, .overflow) => none

/-- Several such bytes, in order. -/
def receiveAll (max : Option Nat) (c : RxState × List Byte) (bs : List Byte) : Option (RxState × List Byte) :=
  bs.foldlM (receiveByte max) c

theorem receiveByte_eq_some_iff {max : Option Nat} {c : RxState × List Byte} {b : Byte} {st : RxState} {buf : List Byte} :
    receiveByte max c b = some (st, buf) ↔ rxStep max c.1 c.2 b = (st, buf, .none) := by
  unfold receiveByte
  split <;> simp_all

@[simp] theorem receiveAll_nil (max : Option Nat) (c : RxState × List Byte) : receiveAll max c [] = some c := rfl

@[simp] theorem receiveAll_cons (max : Option Nat) (c : RxState × List Byte) (b : Byte) (bs : List Byte) :
    receiveAll max c (b :: bs) = (receiveByte max c b).bind fun d => receiveAll max d bs := rfl

@[simp] theorem receiveAll_append (max : Option Nat) (c : RxState × List Byte) (bs bs' : List Byte) :
    receiveAll max c (bs ++ bs') = (receiveAll max c bs).bind fun d => receiveAll max d bs' :=
  List.foldlM_append

/-- The bytes before an event have none either. -/
theorem exists_receiveAll_take {max : Option Nat} {c d : RxState × List Byte} {bs : List Byte}
    (h : receiveAll max c bs = some d) (n : Nat) : ∃ st buf, receiveAll max c (bs.take n) = some (st, buf) := by
  rw [← List.take_append_drop n bs, receiveAll_append] at h
  obtain ⟨⟨st, buf⟩, htake, _⟩ := Option.bind_eq_some_iff.mp h
  exact ⟨st, buf, htake⟩

section
variable {max : Option Nat} {st : RxState} {buf : List Byte} {b : Byte}

theorem receiveByte_marker (hst : st ≠ .idle) :
    receiveByte max (st, buf) startMarker = some (.accum, [startMarker]) := by
  rw [receiveByte_eq_some_iff]
  cases st with
  | idle => exact absurd rfl hst
  | seeking | accum => rfl

/-- A marker begins a fresh buffer, whatever was received before it (R154, log 15). -/
theorem receiveAll_marker_cons (bs : List Byte) (hst : st ≠ .idle) :
    receiveAll max (st, buf) (startMarker :: bs) = receiveAll max (.accum, [startMarker]) bs := by
  rw [receiveAll_cons, receiveByte_marker hst, Option.bind_some]

theorem receiveByte_seeking (hb : b ≠ startMarker) : receiveByte max (.seeking, buf) b = some (.seeking, []) := by
  rw [receiveByte_eq_some_iff]
  exact if_neg hb

theorem receiveByte_accum (hm : b ≠ startMarker) (ht : b ≠ terminator) (hroom : bodyFull max buf = false) :
    receiveByte max (.accum, buf) b = some (.accum, buf ++ [b]) := by
  rw [receiveByte_eq_some_iff]
  simp [rxStep, hm, ht, hroom]

/-- A byte without an event does not end the decode. -/
theorem receiveByte_ne_idle {st' : RxState} {buf' : List Byte} (hst : st ≠ .idle)
    (h : receiveByte max (st, buf) b = some (st', buf')) : st' ≠ .idle := by
  rw [receiveByte_eq_some_iff] at h
  obtain ⟨_, hs⟩ | ⟨_, _, hs⟩ | ⟨_, _, hs⟩ | ⟨_, _, _, _, hs⟩ | ⟨_, _, _, _, hs⟩ := rxStep_cases max st buf b hst <;>
    rw [hs] at h <;> cases h <;> decide

theorem receiveAll_ne_idle {bs : List Byte} {st' : RxState} {buf' : List Byte} (hst : st ≠ .idle)
    (h : receiveAll max (st, buf) bs = some (st', buf')) : st' ≠ .idle := by
  induction bs generalizing st buf with
  | nil => cases h; exact hst
  | cons b bs ih =>
    obtain ⟨⟨st₁, buf₁⟩, hb, hbs⟩ := Option.bind_eq_some_iff.mp h
    exact ih (receiveByte_ne_idle hst hb) hbs

end

/-! ## Room in the buffer (R161) -/

/-- A shorter body fits where a longer one does. -/
theorem fitsBody_of_length_le {max : Option Nat} {body body' : List Byte} (hlen : body.length ≤ body'.length)
    (h : fitsBody max body') : fitsBody max body := by
  cases max with
  | none => trivial
  | some m => exact le_trans hlen h

/-- A buffer whose body fits with one more byte is not full. -/
theorem bodyFull_eq_false {max : Option Nat} {buf bs : List Byte} {b : Byte}
    (h : fitsBody max (buf.drop 1 ++ b :: bs)) : bodyFull max buf = false := by
  cases max with
  | none => rfl
  | some m =>
    have hle : (buf.drop 1 ++ b :: bs).length ≤ m := h
    simp only [List.length_append, List.length_drop, List.length_cons] at hle
    simp only [bodyFull, beq_eq_false_iff_ne]
    omega

/-- What fits behind the buffer still fits once its first byte is in the buffer. -/
theorem fitsBody_drop_append_singleton {max : Option Nat} {buf bs : List Byte} {b : Byte}
    (h : fitsBody max (buf.drop 1 ++ b :: bs)) : fitsBody max ((buf ++ [b]).drop 1 ++ bs) := by
  refine fitsBody_of_length_le ?_ h
  simp only [List.length_append, List.length_drop, List.length_cons, List.length_nil]
  omega

/-! ## Garbage and content (R157) -/

section
variable {max : Option Nat}

/-- Waiting for the marker, a decode discards every other byte. -/
theorem exists_receiveAll_seeking {garbage : List Byte} (buf : List Byte) (hg : ∀ b ∈ garbage, b ≠ startMarker) :
    ∃ buf', receiveAll max (.seeking, buf) garbage = some (.seeking, buf') := by
  induction garbage generalizing buf with
  | nil => exact ⟨buf, rfl⟩
  | cons b garbage ih =>
    obtain ⟨hb, hgarbage⟩ := List.forall_mem_cons.mp hg
    rw [receiveAll_cons, receiveByte_seeking hb]
    exact ih [] hgarbage

/-- Receiving a frame, bytes that are neither marker nor terminator are appended as long as they fit. -/
theorem receiveAll_accum {body : List Byte} (buf : List Byte) (hplain : ∀ b ∈ body, b ≠ startMarker ∧ b ≠ terminator)
    (hfits : fitsBody max (buf.drop 1 ++ body)) : receiveAll max (.accum, buf) body = some (.accum, buf ++ body) := by
  induction body generalizing buf with
  | nil => simp
  | cons b body ih =>
    obtain ⟨⟨hm, ht⟩, hbody⟩ := List.forall_mem_cons.mp hplain
    rw [receiveAll_cons, receiveByte_accum hm ht (bodyFull_eq_false hfits), Option.bind_some,
      ih (buf ++ [b]) hbody (fitsBody_drop_append_singleton hfits), List.append_assoc, List.singleton_append]

/-- Receiving a frame, bytes that are no terminator leave the decode receiving one, whatever markers are among them. -/
theorem exists_receiveAll_accum {garbage : List Byte} (buf : List Byte) (hg : ∀ b ∈ garbage, b ≠ terminator)
    (hfits : fitsBody max (buf.drop 1 ++ garbage)) :
    ∃ buf', receiveAll max (.accum, buf) garbage = some (.accum, buf') := by
  induction garbage generalizing buf with
  | nil => exact ⟨buf, rfl⟩
  | cons b garbage ih =>
    obtain ⟨ht, hgarbage⟩ := List.forall_mem_cons.mp hg
    by_cases hm : b = startMarker
    · rw [hm, receiveAll_marker_cons garbage (by decide)]
      exact ih _ hgarbage (fitsBody_of_length_le (by simp; omega) hfits)
    · rw [receiveAll_cons, receiveByte_accum hm ht (bodyFull_eq_false hfits)]
      exact ih _ hgarbage (fitsBody_drop_append_singleton hfits)

/-- From any state of a decode, the marker and an escaped sequence that fits are what the buffer then holds. -/
theorem receiveAll_marker_stuff {st : RxState} {data : List Byte} (buf : List Byte) (hst : st ≠ .idle)
    (hfits : fitsBody max (stuff data)) :
    receiveAll max (st, buf) (startMarker :: stuff data) = some (.accum, startMarker :: stuff data) := by
  have hplain : ∀ b ∈ stuff data, b ≠ startMarker ∧ b ≠ terminator := fun b hb =>
    ⟨fun h => startMarker_notMem_stuff data (h ▸ hb), fun h => terminator_notMem_stuff data (h ▸ hb)⟩
  rw [receiveAll_marker_cons _ hst, receiveAll_accum _ hplain hfits, List.singleton_append]

end

/-! ## RX.BYTE over such bytes (R156, R158) -/

theorem runCommands_cons {cfg : Config} {i : Instr} {is : List Instr} {s t : State} (h : execWith cfg i s = .next t) :
    runCommands cfg (i :: is) s = runCommands cfg is t := by
  simp [runCommands, h]

theorem runCommands_singleton (cfg : Config) (i : Instr) (s : State) : runCommands cfg [i] s = execWith cfg i s := by
  rw [runCommands]
  split <;> simp_all [runCommands]

theorem runCommands_append {cfg : Config} {is js : List Instr} {s t : State} (h : runCommands cfg is s = .next t) :
    runCommands cfg (is ++ js) s = runCommands cfg js t := by
  induction is generalizing s with
  | nil => cases h; rfl
  | cons i is ih =>
    rw [runCommands] at h
    split at h
    · next u hu => rw [List.cons_append, runCommands_cons hu, ih h]
    · cases h
    · cases h

@[simp] theorem rxFeed_append (bs bs' : List Byte) : rxFeed (bs ++ bs') = rxFeed bs ++ rxFeed bs' := List.map_append

/-- RX.BYTE goes on with the frame where the byte has no event. -/
theorem rxByte_of_receiveByte {max : Option Nat} {s : State} {b : Byte} {st : RxState} {buf : List Byte}
    (hbusy : s.rxs ≠ .idle) (h : receiveByte max (s.rxs, s.rxbuf) b = some (st, buf)) :
    rxByte max b s = .next ((s.setRx st buf).setResp { rxs := some st, done := some false }) := by
  simp [rxByte, hbusy, receiveByte_eq_some_iff.mp h]

/-- RX.BYTE completes the frame at its terminator (R158). -/
theorem rxByte_terminator (max : Option Nat) {s : State} (h : s.rxs = .accum) :
    rxByte max terminator s = finishFrame (s.rxbuf.drop 1) (s.setRx .idle []) := by
  simp [rxByte, rxStep, h, startMarker, terminator]

/-- Bytes without an event change nothing but `RXS`, `RXBUF` and the response. -/
theorem runCommands_rxFeed {cfg : Config} {bs : List Byte} {s : State} {st : RxState} {buf : List Byte}
    (hbusy : s.rxs ≠ .idle) (h : receiveAll cfg.rxBodyMax (s.rxs, s.rxbuf) bs = some (st, buf)) :
    ∃ resp, runCommands cfg (rxFeed bs) s = .next { s with rxs := st, rxbuf := buf, resp := resp } := by
  induction bs generalizing s with
  | nil => cases h; exact ⟨s.resp, rfl⟩
  | cons b bs ih =>
    obtain ⟨⟨st₁, buf₁⟩, hb, hbs⟩ := Option.bind_eq_some_iff.mp h
    obtain ⟨resp, hrun⟩ := ih (s := (s.setRx st₁ buf₁).setResp { rxs := some st₁, done := some false })
      (receiveByte_ne_idle hbusy hb) hbs
    exact ⟨resp, (runCommands_cons (i := .rxByte b) (rxByte_of_receiveByte hbusy hb)).trans hrun⟩

/-- The byte after them finds what they left. -/
theorem runCommands_rxFeed_append_singleton {cfg : Config} {bs : List Byte} {s : State} {st : RxState} {buf : List Byte}
    (b : Byte) (hbusy : s.rxs ≠ .idle) (h : receiveAll cfg.rxBodyMax (s.rxs, s.rxbuf) bs = some (st, buf)) :
    ∃ resp, runCommands cfg (rxFeed (bs ++ [b])) s =
      rxByte cfg.rxBodyMax b { s with rxs := st, rxbuf := buf, resp := resp } := by
  obtain ⟨resp, hrun⟩ := runCommands_rxFeed hbusy h
  exact ⟨resp, by rw [rxFeed_append, runCommands_append hrun]; exact runCommands_singleton cfg (.rxByte b) _⟩

/-! ## A frame is received (R135, R152) -/

/-- The body of an encoded frame completes without a warning under either policy, delivering payload and FCS. -/
theorem complete_stuff_withFcs (p : List Byte) (strict : Bool) :
    complete (stuff (withFcs p)) strict = { code := .ok, warn := 0, payload := withFcs p, rxst := 0x03 } := by
  have hcrc : crc16 (withFcs p) = 0x0000 := (frameCheckSequenceSelfChecks p).2
  simp only [complete, unstuff_stuff, hcrc, bne_self_eq_false, Bool.and_false, Bool.not_false, if_true]
  rfl

section
variable {cfg : Config} {before p : List Byte} {s : State} {st : RxState} {buf : List Byte}

/-- After bytes without an event, the frame up to its terminator has none, and the buffer holds the marker and the body. -/
theorem receiveAll_append_marker_stuff (hbusy : s.rxs ≠ .idle) (hfits : fitsBody cfg.rxBodyMax (stuff (withFcs p)))
    (hbefore : receiveAll cfg.rxBodyMax (s.rxs, s.rxbuf) before = some (st, buf)) :
    receiveAll cfg.rxBodyMax (s.rxs, s.rxbuf) (before ++ startMarker :: stuff (withFcs p)) =
      some (.accum, startMarker :: stuff (withFcs p)) := by
  rw [receiveAll_append, hbefore]
  exact receiveAll_marker_stuff buf (receiveAll_ne_idle hbusy hbefore) hfits

/-- After bytes without an event, a frame for the receiver is delivered. -/
theorem runCommands_rxFeed_append_frame (hbusy : s.rxs ≠ .idle) (hfits : fitsBody cfg.rxBodyMax (stuff (withFcs p)))
    (hbefore : receiveAll cfg.rxBodyMax (s.rxs, s.rxbuf) before = some (st, buf)) :
    runCommands cfg (rxFeed (before ++ frame 0x40 p)) s =
      .next { s with rxs := .idle, rxbuf := [], rxp := withFcs p, rxst := 0x03,
                     resp := some { rxs := some .idle, done := some true } } := by
  obtain ⟨resp, hrun⟩ := runCommands_rxFeed_append_singleton terminator hbusy
    (receiveAll_append_marker_stuff hbusy hfits hbefore)
  rw [frame_eq_append, ← List.append_assoc]
  refine hrun.trans ?_
  rw [rxByte_terminator _ rfl, finishFrame_eq, List.drop_one, List.tail_cons, complete_stuff_withFcs]
  rfl

/-- So the frame completes at its terminator and not before (R135). -/
theorem completesAtTerminator_of_receiveAll (hrxst : s.rxst = 0x00) (hrxp : s.rxp = []) (hbusy : s.rxs ≠ .idle)
    (hfits : fitsBody cfg.rxBodyMax (stuff (withFcs p)))
    (hbefore : receiveAll cfg.rxBodyMax (s.rxs, s.rxbuf) before = some (st, buf)) :
    completesAtTerminator cfg s before p := by
  refine ⟨fun n hn => ?_, runCommands_rxFeed_append_frame hbusy hfits hbefore⟩
  obtain ⟨st', buf', htake⟩ := exists_receiveAll_take (receiveAll_append_marker_stuff hbusy hfits hbefore) n
  obtain ⟨resp, hrun⟩ := runCommands_rxFeed hbusy htake
  rw [frame_eq_append, ← List.append_assoc] at hn ⊢
  rw [List.length_append, List.length_singleton] at hn
  rw [List.take_append_of_le_length (Nat.le_of_lt_succ hn)]
  exact ⟨_, hrun, receiveAll_ne_idle hbusy htake, hrxp, hrxst⟩

end

/-- Settles O48: in each case the bytes before the frame have no event. -/
theorem receiverAcceptsEncodedFrame : Obligations.ReceiverAcceptsEncodedFrame := by
  intro cfg p s hrxst hrxp hfits
  have accepts {before : List Byte} (hbusy : s.rxs ≠ .idle)
      (h : ∃ c, receiveAll cfg.rxBodyMax (s.rxs, s.rxbuf) before = some c) : completesAtTerminator cfg s before p := by
    obtain ⟨⟨st, buf⟩, hbefore⟩ := h
    exact completesAtTerminator_of_receiveAll hrxst hrxp hbusy hfits hbefore
  refine ⟨fun garbage hseek hg => ?_, fun garbage hacc hg hroom => ?_, fun stray garbage hseek hs hg hroom => ?_⟩
  · obtain ⟨buf, h⟩ := exists_receiveAll_seeking (max := cfg.rxBodyMax) s.rxbuf hg
    exact accepts (by simp [hseek]) ⟨_, hseek ▸ h⟩
  · obtain ⟨buf, h⟩ := exists_receiveAll_accum s.rxbuf hg hroom
    exact accepts (by simp [hacc]) ⟨_, hacc ▸ h⟩
  · obtain ⟨buf, hstray⟩ := exists_receiveAll_seeking (max := cfg.rxBodyMax) s.rxbuf hs
    obtain ⟨buf', h⟩ := exists_receiveAll_accum [startMarker] hg hroom
    refine accepts (by simp [hseek]) ⟨(.accum, buf'), ?_⟩
    rw [hseek, receiveAll_append, hstray]
    exact (receiveAll_marker_cons (st := .seeking) garbage nofun).trans h

/-- Settles O49: no byte of the frame is the marker. -/
theorem foreignFrameCompletesNothing : Obligations.ForeignFrameCompletesNothing := by
  intro cfg pfx p s hpfx hseek
  have hbusy : s.rxs ≠ .idle := by simp [hseek]
  have hnomarker : startMarker ∉ pfx :: stuff (withFcs p) :=
    List.not_mem_cons_of_ne_of_not_mem hpfx.symm (startMarker_notMem_stuff _)
  obtain ⟨buf, hcontent⟩ := exists_receiveAll_seeking (max := cfg.rxBodyMax) s.rxbuf fun b hb h => hnomarker (h ▸ hb)
  have hlast : receiveByte cfg.rxBodyMax (.seeking, buf) terminator = some (.seeking, []) := receiveByte_seeking (by decide)
  rw [← hseek] at hcontent hlast ⊢
  obtain ⟨resp, hrun⟩ := runCommands_rxFeed_append_singleton terminator hbusy hcontent
  exact hrun.trans (rxByte_of_receiveByte hbusy hlast)

end Sys2Proof.Machine
end

section
/-! PROOFS. A meter reading end to end (41_frame_encode.md R135, 42_frame_decode.md R162, 43_numeric_decode.md R195, R203): a
single-register response decodes to the record it carries, and the receiver hands it on as it was framed. -/

namespace Sys2Proof.Machine

/-- The response to a request for register `id`, read as that register, gives the record it carries (R87, R195). -/
theorem decodeSingle_response (cfg : Config) (id : Word) {r : WireRecord} (extra : List Byte) (f : Word)
    (hm : r.mantissa.length ≤ 255) :
    decodeSingle cfg ([echoDest, echoCmd] ++ be16 id ++ r.bytes ++ extra ++ be16 f) id =
      .ok (unitWarning cfg r.unit, r.result id) := by
  have hlen : (BitVec.ofNat 8 r.mantissa.length).toNat = r.mantissa.length := by
    rw [BitVec.toNat_ofNat]
    omega
  rw [decodeSingle, be16.eq_def f, dregion_append]
  simp [be16, WireRecord.bytes, WireRecord.result, mkRecord, hlen]

/-- The block warns of exactly the units its table does not know (R197). -/
theorem unitWarning_blockConfig (u : Byte) : unitWarning blockConfig u = if unitTable u = none then 4 else 0 := by
  simp only [unitWarning, warnIf, Option.isNone_iff_eq_none]
  rfl

/-- NUM.SINGLE of a response for register `id` answers its record (R203). -/
theorem exec_numSingle_singleResponse (id : Word) {r : WireRecord} (extra : List Byte) (s : State)
    (hm : r.mantissa.length ≤ 255) :
    exec (.numSingle id (singleResponse id r extra)) s =
      .next { s with resp := some { warn := if unitTable r.unit = none then 4 else 0, recd := some (r.result id) } } := by
  have hrun := numSingle_eq blockConfig id (singleResponse id r extra) s
  rw [singleResponse, withFcs, decodeSingle_response _ _ _ _ hm, unitWarning_blockConfig] at hrun
  exact hrun

/-- Settles O60: RX.READ finds what the frame delivered, and NUM.SINGLE reads that. -/
theorem meterReadingReachesTheHost : Obligations.MeterReadingReachesTheHost := by
  intro cfg garbage extra id r s hseek hg hm hfits
  obtain ⟨buf, hgarbage⟩ := exists_receiveAll_seeking (max := cfg.rxBodyMax) s.rxbuf hg
  rw [← hseek] at hgarbage
  refine ⟨_, _, runCommands_rxFeed_append_frame (by simp [hseek]) hfits hgarbage, reply_eq _ _, ?_,
    exec_numSingle_singleResponse id extra _ hm⟩
  simp [State.readRxst, rxstMask, singleResponse, echoDest, echoCmd]

end Sys2Proof.Machine
end

section
/-! PROOFS. How a decode ends (42_frame_decode.md R152 to R154, R158, R161, R163). Besides the bytes without an event there are
the bytes that end the decode, with a completion or an overflow; RX.BYTE and RX.DECODE report the same ending, each in its own
response. -/

namespace Sys2Proof.Machine

/-! ## Completions (R152, R153) -/

section
variable {body u : List Byte} {w : Bool}

/-- A good CRC delivers the unescaped body under either policy. -/
theorem complete_of_crc16_eq_zero (strict : Bool) (hu : unstuff body = (u, w)) (hcrc : crc16 u = 0x0000) :
    complete body strict =
      { code := .ok, warn := if w then 1 else 0, payload := u, rxst := if w then 0x23 else 0x03 } := by
  simp only [complete, hu, hcrc, bne_self_eq_false, Bool.and_false]
  cases w <;> rfl

/-- Without the flag a bad CRC is only reported. -/
theorem complete_false_of_crc16_ne_zero (hu : unstuff body = (u, w)) (hcrc : crc16 u ≠ 0x0000) :
    complete body false =
      { code := .ok, warn := if w then 3 else 2, payload := u, rxst := if w then 0x33 else 0x13 } := by
  simp only [complete, hu, bne_iff_ne.mpr hcrc, Bool.false_and]
  cases w <;> rfl

/-- With the flag a bad CRC delivers nothing. -/
theorem complete_true_of_crc16_ne_zero (hu : unstuff body = (u, w)) (hcrc : crc16 u ≠ 0x0000) :
    complete body true =
      { code := .integrity, warn := if w then 3 else 2, payload := [], rxst := if w then 0x31 else 0x11 } := by
  simp only [complete, hu, bne_iff_ne.mpr hcrc, Bool.true_and]
  cases w <;> rfl

/-- Whatever is made of a completion is one of three things, as the CRC and the flag say (R153). -/
theorem apply_complete_cases (f : Completion → Result) (strict : Bool) (hu : unstuff body = (u, w)) :
    (crc16 u = 0x0000 → f (complete body strict) =
      f { code := .ok, warn := if w then 1 else 0, payload := u, rxst := if w then 0x23 else 0x03 }) ∧
    (crc16 u ≠ 0x0000 → strict = false → f (complete body strict) =
      f { code := .ok, warn := if w then 3 else 2, payload := u, rxst := if w then 0x33 else 0x13 }) ∧
    (crc16 u ≠ 0x0000 → strict = true → f (complete body strict) =
      f { code := .integrity, warn := if w then 3 else 2, payload := [], rxst := if w then 0x31 else 0x11 }) := by
  refine ⟨fun hcrc => ?_, fun hcrc hstrict => ?_, fun hcrc hstrict => ?_⟩
  · rw [complete_of_crc16_eq_zero strict hu hcrc]
  · rw [hstrict, complete_false_of_crc16_ne_zero hu hcrc]
  · rw [hstrict, complete_true_of_crc16_ne_zero hu hcrc]

end

/-- With the flag every completion's payload has CRC 0: it was checked, or it is empty. -/
theorem crc16_payload_complete_true (body : List Byte) : crc16 (complete body true).payload = 0x0000 := by
  obtain ⟨hchecked, _, hp, _⟩ | ⟨_, _, _, hp, _⟩ := complete_cases body true
  · rw [hp, hchecked rfl]
  · rw [hp]; rfl

theorem complete_code_ne_framing (body : List Byte) (strict : Bool) : (complete body strict).code ≠ .framing := by
  obtain ⟨_, hc, _⟩ | ⟨_, _, hc, _⟩ := complete_cases body strict <;> simp [hc]

/-! ## The byte that ends a decode (R154, R161) -/

/-- What an overflow leaves (R161). -/
def overflowed : Completion := { code := .overflow, warn := 0, payload := [], rxst := stOverflow }

/-- What a sequence that ends before its frame leaves (R160, R163). -/
def unfinished : Completion := { code := .framing, warn := 0, payload := [], rxst := stFraming }

/-- In state `st` with buffer `buf`, byte `b` ends the decode with `c`. -/
inductive EndsDecode (max : Option Nat) (strict : Bool) (st : RxState) (buf : List Byte) (b : Byte) : Completion → Prop
  /-- The terminator completes the frame (R158). -/
  | frame (hacc : st = .accum) (hb : b = terminator) : EndsDecode max strict st buf b (complete (buf.drop 1) strict)
  /-- A data byte finds the buffer full (R161). -/
  | overflow (hacc : st = .accum) (hm : b ≠ startMarker) (ht : b ≠ terminator) (hfull : bodyFull max buf = true) :
    EndsDecode max strict st buf b overflowed

theorem bodyFull_eq_true_iff {max : Option Nat} {buf : List Byte} :
    bodyFull max buf = true ↔ ∃ m, max = some m ∧ buf.length = m + 1 := by
  cases max <;> simp [bodyFull]

section
variable {max : Option Nat} {strict : Bool} {st : RxState} {buf : List Byte} {b : Byte} {c : Completion}

theorem EndsDecode.code_ne_framing (h : EndsDecode max strict st buf b c) : c.code ≠ .framing := by
  cases h with
  | frame => exact complete_code_ne_framing _ _
  | overflow => simp [overflowed]

/-- With the flag, what a decode ends with has CRC 0 (R153). -/
theorem EndsDecode.crc16_payload (h : EndsDecode max true st buf b c) : crc16 c.payload = 0x0000 := by
  cases h with
  | frame => exact crc16_payload_complete_true _
  | overflow => rfl

/-- A byte of a decode in progress has no event or ends it. -/
theorem receiveByte_or_endsDecode (max : Option Nat) (strict : Bool) (buf : List Byte) (b : Byte) (hst : st ≠ .idle) :
    (∃ st' buf', receiveByte max (st, buf) b = some (st', buf')) ∨ ∃ c, EndsDecode max strict st buf b c := by
  simp only [receiveByte_eq_some_iff]
  obtain ⟨_, h⟩ | ⟨_, _, h⟩ | ⟨hacc, hb, _⟩ | ⟨hacc, hm, ht, hfull, _⟩ | ⟨_, _, _, _, h⟩ :=
    rxStep_cases max st buf b hst
  · exact .inl ⟨_, _, h⟩
  · exact .inl ⟨_, _, h⟩
  · exact .inr ⟨_, .frame hacc hb⟩
  · exact .inr ⟨_, .overflow hacc hm ht hfull⟩
  · exact .inl ⟨_, _, h⟩

/-- The bytes after which a decode is still in progress are all of a sequence, or those before the byte that ends it. -/
theorem receiveAll_or_endsDecode (max : Option Nat) (strict : Bool) (buf bs : List Byte) (hst : st ≠ .idle) :
    (∃ st' buf', receiveAll max (st, buf) bs = some (st', buf')) ∨
    ∃ before b after st' buf' c, bs = before ++ b :: after ∧
      receiveAll max (st, buf) before = some (st', buf') ∧ EndsDecode max strict st' buf' b c := by
  induction bs generalizing st buf with
  | nil => exact .inl ⟨st, buf, rfl⟩
  | cons b bs ih =>
    obtain ⟨st₁, buf₁, hb⟩ | ⟨c, hend⟩ := receiveByte_or_endsDecode max strict buf b hst
    · have hcons (bs' : List Byte) : receiveAll max (st, buf) (b :: bs') = receiveAll max (st₁, buf₁) bs' := by
        rw [receiveAll_cons, hb, Option.bind_some]
      obtain ⟨st', buf', h⟩ | ⟨before, b', after, st', buf', c, rfl, h, hend⟩ := ih buf₁ (receiveByte_ne_idle hst hb)
      · exact .inl ⟨st', buf', (hcons bs).trans h⟩
      · exact .inr ⟨b :: before, b', after, st', buf', c, rfl, (hcons before).trans h, hend⟩
    · exact .inr ⟨[], b, bs, st, buf, c, rfl, rfl, hend⟩

end

/-! ## Garbage and a plain body (R157) -/

section
variable {max : Option Nat} {garbage body : List Byte}

/-- Waiting for the marker with an empty buffer, bytes that are no marker change neither. -/
theorem receiveAll_seeking_nil (hg : ∀ b ∈ garbage, b ≠ startMarker) :
    receiveAll max (.seeking, []) garbage = some (.seeking, []) := by
  induction garbage with
  | nil => rfl
  | cons b garbage ih =>
    obtain ⟨hb, hgarbage⟩ := List.forall_mem_cons.mp hg
    rw [receiveAll_cons, receiveByte_seeking hb]
    exact ih hgarbage

/-- After such bytes, a marker and a plain body that fits are what the buffer holds. -/
theorem receiveAll_garbage_body (hg : ∀ b ∈ garbage, b ≠ startMarker)
    (hplain : ∀ b ∈ body, b ≠ startMarker ∧ b ≠ terminator) (hfits : fitsBody max body) :
    receiveAll max (.seeking, []) (garbage ++ startMarker :: body) = some (.accum, startMarker :: body) := by
  rw [receiveAll_append, receiveAll_seeking_nil hg, Option.bind_some, receiveAll_marker_cons body (by decide),
    receiveAll_accum _ hplain hfits, List.singleton_append]

end

/-! ## RX.BYTE at the byte that ends a decode (R158, R161) -/

/-- The state in which RX.BYTE leaves a completed frame (R158). -/
def State.frameEnded (s : State) (c : Completion) : State :=
  (s.endDecode c.payload c.rxst).setResp { code := c.code, warn := c.warn, rxs := some .idle, done := some true }

/-- RX.BYTE leaves what the body's completion is. -/
theorem rxByte_terminator_eq (max : Option Nat) {s : State} (hacc : s.rxs = .accum) :
    rxByte max terminator s = .next (s.frameEnded (complete (s.rxbuf.drop 1) s.strict)) := by
  rw [rxByte_terminator max hacc, finishFrame_eq]
  rfl

/-- RX.BYTE refuses a data byte when the buffer is full (R161). -/
theorem rxByte_of_bodyFull {max : Option Nat} {s : State} {b : Byte} (hacc : s.rxs = .accum) (hm : b ≠ startMarker)
    (ht : b ≠ terminator) (hfull : bodyFull max s.rxbuf = true) :
    rxByte max b s =
      .next ((s.endDecode [] stOverflow).setResp { code := .overflow, rxs := some .idle, done := some false }) := by
  simp [rxByte, rxStep, hacc, hm, ht, hfull]

/-- RX.BYTE leaves in the registers what the decode ends with. -/
theorem rxByte_of_endsDecode {max : Option Nat} {s : State} {b : Byte} {c : Completion}
    (h : EndsDecode max s.strict s.rxs s.rxbuf b c) :
    ∃ done, rxByte max b s = .next ((s.endDecode c.payload c.rxst).setResp
      { code := c.code, warn := c.warn, rxs := some .idle, done := some done }) := by
  cases h with
  | frame hacc hb =>
    rw [hb]
    exact ⟨true, rxByte_terminator_eq max hacc⟩
  | overflow hacc hm ht hfull => exact ⟨false, rxByte_of_bodyFull hacc hm ht hfull⟩

/-! ## RX.DECODE over a sequence (R163) -/

/-- The answer of RX.DECODE to an ending, `n` bytes having been used. -/
def Completion.decoded (c : Completion) (n : Nat) : Response :=
  { code := c.code, warn := c.warn, payload := some c.payload, rxst := some c.rxst,
    consumed := some (BitVec.ofNat 16 n) }

section
variable {max : Option Nat} {st st' : RxState} {buf buf' : List Byte}

theorem decodeLoop_nil (max : Option Nat) (strict : Bool) (st : RxState) (buf : List Byte) (k : Nat) :
    decodeLoop max strict st buf k [] = unfinished.decoded k := by
  rw [decodeLoop]; rfl

/-- RX.DECODE takes bytes without an event as RX.BYTE does. -/
theorem decodeLoop_append {strict : Bool} {bs : List Byte} (k : Nat) (rest : List Byte)
    (h : receiveAll max (st, buf) bs = some (st', buf')) :
    decodeLoop max strict st buf k (bs ++ rest) = decodeLoop max strict st' buf' (k + bs.length) rest := by
  induction bs generalizing st buf k with
  | nil => cases h; rfl
  | cons b bs ih =>
    obtain ⟨⟨st₁, buf₁⟩, hb, hbs⟩ := Option.bind_eq_some_iff.mp h
    rw [List.cons_append, decodeLoop, receiveByte_eq_some_iff.mp hb, List.length_cons, ← Nat.add_assoc, Nat.add_right_comm]
    exact ih (k + 1) hbs

theorem decodeLoop_cons_of_endsDecode {strict : Bool} {b : Byte} {c : Completion} (k : Nat) (rest : List Byte)
    (h : EndsDecode max strict st buf b c) : decodeLoop max strict st buf k (b :: rest) = c.decoded (k + 1) := by
  cases h with
  | frame hacc hb => simp [decodeLoop, rxStep, hacc, hb, startMarker, terminator, Completion.decoded]
  | overflow hacc hm ht hfull => simp [decodeLoop, rxStep, hacc, hm, ht, hfull, overflowed, Completion.decoded]

/-- RX.DECODE uses up a sequence that does not end the decode. -/
theorem rxDecode_of_receiveAll {data : List Byte} (s : State) (h : receiveAll max (.seeking, []) data = some (st, buf)) :
    rxDecode max data s = .next (s.setResp (unfinished.decoded data.length)) := by
  have hloop := decodeLoop_append (strict := s.strict) 0 [] h
  rw [List.append_nil, decodeLoop_nil, Nat.zero_add] at hloop
  rw [rxDecode_eq, hloop]

/-- RX.DECODE examines nothing behind the byte that ends the decode. -/
theorem rxDecode_of_endsDecode {before : List Byte} {b : Byte} {c : Completion} {s : State} (after : List Byte)
    (h : receiveAll max (.seeking, []) before = some (st, buf)) (hend : EndsDecode max s.strict st buf b c) :
    rxDecode max (before ++ b :: after) s = .next (s.setResp (c.decoded (before.length + 1))) := by
  rw [rxDecode_eq, decodeLoop_append 0 _ h, decodeLoop_cons_of_endsDecode _ after hend, Nat.zero_add]

end

end Sys2Proof.Machine
end

section
/-! PROOFS. The commands of the receive side (42_frame_decode.md R155 to R165). -/

namespace Sys2Proof.Machine

/-! ## Starting and ending a decode (R155, R159, R160) -/

/-- A command that ends a decode writes the receiver's registers and the response port alone. -/
theorem raise_endDecode (code : Code) (s : State) (status : Byte) :
    raise code {} (s.endDecode [] status) =
      .next { s with rxs := .idle, rxbuf := [], rxp := [], rxst := status, resp := some { code := code } } := rfl

/-- Settles O35: no register is read. -/
theorem rxStartBeginsDecode : Obligations.RxStartBeginsDecode := ⟨rfl, fun _ => reply_eq _ _⟩

theorem exec_rxTimeout_of_busy {s : State} (hbusy : s.rxs ≠ .idle) :
    exec .rxTimeout s = raise .timeout {} (s.endDecode [] stTimeout) := if_neg hbusy

theorem exec_rxEos_of_busy {s : State} (hbusy : s.rxs ≠ .idle) :
    exec .rxEos s = raise .framing {} (s.endDecode [] stFraming) := if_neg hbusy

/-- Settles O38: `RXS` alone decides. -/
theorem rxTimeoutEndsDecode : Obligations.RxTimeoutEndsDecode :=
  ⟨rfl, fun s hbusy => (exec_rxTimeout_of_busy hbusy).trans (raise_endDecode _ s _), fun _ hidle => if_pos hidle⟩

/-- Settles O39: `RXS` alone decides. -/
theorem rxEosEndsDecode : Obligations.RxEosEndsDecode :=
  ⟨rfl, fun s hbusy => (exec_rxEos_of_busy hbusy).trans (raise_endDecode _ s _), fun _ hidle => if_pos hidle⟩

/-- Settles O40: only the response is written. -/
theorem rxReadReportsReceiver : Obligations.RxReadReportsReceiver := ⟨rfl, fun s => reply_eq _ s⟩

/-! ## RX.BYTE (R156 to R158, R161) -/

/-- Settles O36: the state machine's byte without an event, or the overflow. -/
theorem rxByteFollowsStateMachine : Obligations.RxByteFollowsStateMachine := by
  intro cfg b s
  refine ⟨rfl, rfl, rxByte_idle _ b s, fun hbusy hb => ?marker, fun hseek hb => ?seeking,
    fun m hacc hm ht hmax hlen => ?overflow, fun hacc hm ht hroom => ?data⟩
  case marker =>
    subst hb
    exact rxByte_of_receiveByte hbusy (receiveByte_marker hbusy)
  case seeking =>
    rw [← hseek]
    exact rxByte_of_receiveByte (by simp [hseek]) (hseek ▸ receiveByte_seeking hb)
  case overflow => exact rxByte_of_bodyFull hacc hm ht (bodyFull_eq_true_iff.mpr ⟨m, hmax, hlen⟩)
  case data =>
    have hfull : bodyFull cfg.rxBodyMax s.rxbuf = false := by
      rw [← Bool.not_eq_true, bodyFull_eq_true_iff]
      exact fun ⟨m, hmax, hlen⟩ => hroom m hmax hlen
    rw [← hacc]
    exact rxByte_of_receiveByte (by simp [hacc]) (hacc ▸ receiveByte_accum hm ht hfull)

/-- Settles O37: the buffer behind its marker is completed. -/
theorem rxByteCompletesFrame : Obligations.RxByteCompletesFrame := by
  intro s u w hacc hu
  have hrun : exec (.rxByte 0x0D) s = _ := rxByte_terminator_eq _ hacc
  rw [hrun]
  exact apply_complete_cases (fun c => .next (s.frameEnded c)) s.strict hu

/-- Only what the first command leaves reaches the others. -/
theorem runCommands_cons_congr {cfg : Config} {i : Instr} {s t : State} (is : List Instr)
    (h : execWith cfg i s = execWith cfg i t) : runCommands cfg (i :: is) s = runCommands cfg (i :: is) t := by
  rw [runCommands, runCommands, h]

/-- RX.BYTE does not read the response port. -/
theorem rxByte_ignores_resp (max : Option Nat) (b : Byte) (s : State) (resp : Option Response) :
    rxByte max b { s with resp := resp } = rxByte max b s := rfl

/-- Settles O46: bytes that are no marker leave `SEEKING` and the empty buffer as they were. -/
theorem garbageBeforeMarkerIsDiscarded : Obligations.GarbageBeforeMarkerIsDiscarded := by
  intro cfg garbage later s hseek hbuf hg hlater
  obtain ⟨b, bs, rfl⟩ := List.exists_cons_of_ne_nil hlater
  have hgarbage : receiveAll cfg.rxBodyMax (s.rxs, s.rxbuf) garbage = some (s.rxs, s.rxbuf) := by
    rw [hseek, hbuf]
    exact receiveAll_seeking_nil hg
  obtain ⟨resp, hrun⟩ := runCommands_rxFeed (by simp [hseek]) hgarbage
  rw [rxFeed_append, runCommands_append hrun]
  exact runCommands_cons_congr (rxFeed bs) (rxByte_ignores_resp _ b s resp)

/-- Settles O47: the marker leaves the same buffer whatever it held. -/
theorem markerRestartsTheFrame : Obligations.MarkerRestartsTheFrame := by
  intro cfg s older later hacc
  have hbusy : s.rxs ≠ .idle := by simp [hacc]
  have hmarker (buf : List Byte) : execWith cfg (.rxByte startMarker) { s with rxbuf := buf } =
      .next ((s.setRx .accum [startMarker]).setResp { rxs := some .accum, done := some false }) :=
    rxByte_of_receiveByte hbusy (receiveByte_marker hbusy)
  exact runCommands_cons_congr (rxFeed later) ((hmarker older).trans (hmarker s.rxbuf).symm)

/-! ## RX.DECODE (R163) -/

/-- Settles O41: the terminator ends the decode with the body's completion. -/
theorem rxDecodeDeliversFirstFrame : Obligations.RxDecodeDeliversFirstFrame := by
  intro cfg garbage body after u w s hg hplain hfits _ hu
  have hrun : execWith cfg (.rxDecode (garbage ++ 0x40 :: body ++ 0x0D :: after)) s =
      .next (s.setResp ((complete body s.strict).decoded (garbage.length + body.length + 2))) := by
    refine (rxDecode_of_endsDecode after (receiveAll_garbage_body hg hplain hfits) (.frame rfl rfl)).trans ?_
    rw [List.length_append, List.length_cons, List.drop_one, List.tail_cons]
    rfl
  rw [hrun]
  exact ⟨fun _ => rfl, apply_complete_cases (fun c => .next (s.setResp (c.decoded _))) s.strict hu⟩

/-- Settles O42: neither sequence ends the decode. -/
theorem rxDecodeWithoutFrameIsFraming : Obligations.RxDecodeWithoutFrameIsFraming := by
  refine ⟨fun garbage s hg _ => rxDecode_of_receiveAll s (receiveAll_seeking_nil hg),
    fun cfg garbage body s hg hplain hfits _ => ?_⟩
  refine (rxDecode_of_receiveAll s (receiveAll_garbage_body hg hplain hfits)).trans ?_
  rw [List.length_append, List.length_cons, ← Nat.add_assoc]
  rfl

/-- The state after RX.START. -/
def State.decodeStarted (s : State) : State := ((s.setRx .seeking []).setResult [] 0x00).setResp {}

theorem runCommands_rxStart_cons (cfg : Config) (is : List Instr) (s : State) :
    runCommands cfg (.rxStart :: is) s = runCommands cfg is s.decodeStarted := runCommands_cons rfl

section
variable {cfg : Config} {s : State} {st : RxState} {buf : List Byte}

/-- Streaming bytes without an event leaves the decode in progress. -/
theorem exists_runCommands_of_receiveAll {bs : List Byte}
    (h : receiveAll cfg.rxBodyMax (.seeking, []) bs = some (st, buf)) :
    ∃ u, runCommands cfg (.rxStart :: rxFeed bs) s = .next u ∧ u.rxs ≠ .idle := by
  obtain ⟨resp, hfeed⟩ := runCommands_rxFeed (s := s.decodeStarted) nofun h
  exact ⟨_, (runCommands_rxStart_cons cfg _ s).trans hfeed, receiveAll_ne_idle (st := .seeking) nofun h⟩

/-- Streaming up to the byte that ends the decode leaves that ending in the registers. -/
theorem exists_runCommands_of_endsDecode {before : List Byte} {b : Byte} {c : Completion}
    (h : receiveAll cfg.rxBodyMax (.seeking, []) before = some (st, buf))
    (hend : EndsDecode cfg.rxBodyMax s.strict st buf b c) :
    ∃ u q, runCommands cfg (.rxStart :: rxFeed (before ++ [b])) s = .next u ∧ u.rxs = .idle ∧ u.rxp = c.payload ∧
      u.rxst = c.rxst ∧ u.resp = some q ∧ q.code = c.code ∧ q.warn = c.warn := by
  obtain ⟨resp, hfeed⟩ := runCommands_rxFeed_append_singleton (s := s.decodeStarted) b nofun h
  obtain ⟨done, hbyte⟩ := rxByte_of_endsDecode
    (s := { s.decodeStarted with rxs := st, rxbuf := buf, resp := resp }) hend
  exact ⟨_, _, (runCommands_rxStart_cons cfg _ s).trans (hfeed.trans hbyte), rfl, rfl, rfl, rfl, rfl, rfl⟩

end

/-- Settles O43: a sequence ends the decode at one of its bytes or not at all, for both receivers alike. -/
theorem rxDecodeAgreesWithStreaming : Obligations.RxDecodeAgreesWithStreaming := by
  intro cfg data s hlen
  refine ⟨encode_seq rfl, rfl, ?_⟩
  have consumed {n : Nat} (hn : n ≤ data.length) : (BitVec.ofNat 16 n).toNat = n := by
    rw [BitVec.toNat_ofNat]
    omega
  obtain ⟨st, buf, hall⟩ | ⟨before, b, after, st, buf, c, hdata, hbefore, hend⟩ :=
    receiveAll_or_endsDecode (st := .seeking) cfg.rxBodyMax s.strict [] data nofun
  · have hn := consumed data.length.le_refl
    obtain ⟨u, hrun, hbusy⟩ := exists_runCommands_of_receiveAll hall
    refine ⟨unfinished.decoded data.length, _, u, rxDecode_of_receiveAll s hall, rfl, hn.le, ?_, fun h => absurd rfl h,
      fun _ => ⟨hn, hbusy, _, exec_rxEos_of_busy hbusy, rfl, rfl, _, rfl, rfl, rfl⟩⟩
    rw [hn, List.take_length, hrun]
  · have hle : before.length + 1 ≤ data.length := by simp [hdata]
    have htake : data.take (before.length + 1) = before ++ [b] := by simp [hdata, List.take_append]
    obtain ⟨u, q, hrun, hidle, hrxp, hrxst, hq⟩ := exists_runCommands_of_endsDecode hbefore hend
    refine ⟨c.decoded (before.length + 1), _, u, hdata ▸ rxDecode_of_endsDecode after hbefore hend, rfl,
      (consumed hle).trans_le hle, ?_, fun _ => ⟨hidle, congrArg some hrxp.symm, congrArg some hrxst.symm, q, hq⟩,
      fun h => absurd h hend.code_ne_framing⟩
    rw [consumed hle, htake, hrun]

/-! ## DEC.UNSTUFF and DEC.BODY (R164, R165) -/

/-- Settles O44: the scan's equations, and only the response is written. -/
theorem decUnstuffUnescapes : Obligations.DecUnstuffUnescapes := by
  refine ⟨fun data => ⟨encode_seq rfl, fun s => reply_eq _ s⟩, unstuff_nil, unstuff_dangling, unstuff_literal,
    fun c rest => (unstuff_pair c rest).trans ?_⟩
  have hanomaly : (!inEscapeSet (c ^^^ 0xFF)) = decide (c ^^^ 0xFF ∉ ([0x06, 0x0D, 0x1B, 0x40, 0x80] : List Byte)) := by
    rw [Bool.eq_iff_iff, decide_eq_true_iff, ← inEscapeSet_iff, Bool.not_eq_true', Bool.not_eq_true]
  rw [Bool.or_comm, hanomaly]

/-- The answer of DEC.BODY to a completion. -/
def Completion.answered (c : Completion) : Response :=
  { code := c.code, warn := c.warn, payload := some c.payload, rxst := some c.rxst }

theorem exec_decBody (body : List Byte) (s : State) :
    exec (.decBody body) s = .next (s.setResp (complete body s.strict).answered) := execDecBody_eq body s

/-- Settles O45: the operand is completed as a body, and only the response is written. -/
theorem decBodyCompletesBody : Obligations.DecBodyCompletesBody := by
  intro body u w s hu
  rw [exec_decBody]
  exact ⟨encode_seq rfl, apply_complete_cases (fun c => .next (s.setResp c.answered)) s.strict hu⟩

/-! ## The fail-closed policy (R153) -/

/-- RX.BYTE, ending a decode with the flag set, leaves a payload with CRC 0. -/
theorem crc16_rxp_of_rxByte {max : Option Nat} {b : Byte} {s t : State} (hstrict : s.strict = true) (hbusy : s.rxs ≠ .idle)
    (h : rxByte max b s = .next t) (hidle : t.rxs = .idle) : crc16 t.rxp = 0x0000 := by
  obtain ⟨st, buf, hb⟩ | ⟨c, hend⟩ := receiveByte_or_endsDecode max s.strict s.rxbuf b hbusy
  · rw [rxByte_of_receiveByte hbusy hb] at h
    cases h
    exact absurd hidle (receiveByte_ne_idle hbusy hb)
  · obtain ⟨done, hrun⟩ := rxByte_of_endsDecode hend
    rw [hrun] at h
    cases h
    rw [hstrict] at hend
    exact hend.crc16_payload

/-- With the flag set, RX.DECODE answers an ending whose payload has CRC 0. -/
theorem exists_rxDecode_eq_checked (max : Option Nat) (data : List Byte) {s : State} (hstrict : s.strict = true) :
    ∃ c n, rxDecode max data s = .next (s.setResp (Completion.decoded c n)) ∧ crc16 c.payload = 0x0000 := by
  obtain ⟨_, _, hall⟩ | ⟨before, b, after, _, _, c, rfl, hbefore, hend⟩ :=
    receiveAll_or_endsDecode (st := .seeking) max s.strict [] data nofun
  · exact ⟨_, _, rxDecode_of_receiveAll s hall, rfl⟩
  · exact ⟨c, _, rxDecode_of_endsDecode after hbefore hend, (hstrict ▸ hend).crc16_payload⟩

/-- Settles O50: whatever ends a decode with the flag set has CRC 0. -/
theorem strictModeDeliversOnlyCheckedPayloads : Obligations.StrictModeDeliversOnlyCheckedPayloads := by
  intro s t (hstrict : s.strict = true)
  refine ⟨fun b hbusy h hidle => crc16_rxp_of_rxByte hstrict hbusy h hidle, fun data p r h hr hp => ?decode,
    fun body p r h hr hp => ?body⟩
  case decode =>
    obtain ⟨c, n, hrun, hcrc⟩ := exists_rxDecode_eq_checked blockConfig.rxBodyMax data hstrict
    cases hrun.symm.trans h
    cases hr
    cases hp
    exact hcrc
  case body =>
    cases (exec_decBody body s).symm.trans h
    cases hr
    cases hp
    rw [hstrict]
    exact crc16_payload_complete_true body

end Sys2Proof.Machine
end

section
/-! PROOFS. The numeric decoder (43_numeric_decode.md R190 to R204). An exponent byte and a mantissa are numbers written in
fields; a response is a header that has to echo the request, and behind it records that carry their own mantissa length, so
that reading one leaves exactly the bytes behind it. The parsers see a payload through its data region only (R194). -/

namespace Sys2Proof.Machine

/-! ## The numbers (R190 to R193) -/

/-- The fields as arithmetic on the exponent byte (R190). -/
theorem fields_eq (e : Byte) :
    fields e =
      { vneg := e.getLsbD 7
        eneg := e.getLsbD 6
        emag := BitVec.ofNat 6 (e.toNat % 64)
        exp := if e.getLsbD 6 then -(e.toNat % 64 : Int) else (e.toNat % 64 : Int) } := by
  have hemag : e.extractLsb' 0 6 = BitVec.ofNat 6 (e.toNat % 64) := by
    apply BitVec.eq_of_toNat_eq
    simp
  simp [fields, hemag]

/-- The bytes are base-256 digits, the lowest being the last (R191). -/
theorem mant_eq_ofDigits (m : List Byte) : mant m = Nat.ofDigits 256 (m.reverse.map BitVec.toNat) := by
  induction m using List.reverseRecOn with
  | nil => rfl
  | append_singleton m b ih =>
    rw [mant_append_singleton, List.reverse_concat, List.map_cons, Nat.ofDigits_cons, ← ih, Nat.add_comm]

/-- Multiplying and dividing by powers of ten is one integer power (R192). -/
theorem tripleValue_eq (vneg : Bool) (m : Nat) (exp : Int) :
    tripleValue vneg m exp = (if vneg then -1 else 1) * (m : Rat) * (10 : Rat) ^ exp := by
  have hmagnitude : (if 0 ≤ exp then (m : Rat) * (10 : Rat) ^ exp.toNat else (m : Rat) / (10 : Rat) ^ (-exp).toNat) =
      (m : Rat) * (10 : Rat) ^ exp := by
    cases exp with
    | ofNat n => rw [Int.ofNat_eq_natCast, if_pos (Int.natCast_nonneg n), Int.toNat_natCast, zpow_natCast]
    | negSucc n =>
      rw [if_neg (Int.negSucc_lt_zero n).not_ge, Int.neg_negSucc, Int.toNat_natCast, zpow_negSucc, div_eq_mul_inv]
  simp only [tripleValue, hmagnitude]
  cases vneg <;> simp

/-- Settles O54: the triple's value with the sign bit of the exponent byte. -/
theorem valueIsExactRational : Obligations.ValueIsExactRational := by
  intro e m
  have hvalue : value e m = (if e.getLsbD 7 then -1 else 1) * (mant m : Rat) * (10 : Rat) ^ (fields e).exp :=
    tripleValue_eq _ _ _
  refine ⟨hvalue, fun hzero => ?_⟩
  rw [hvalue, hzero, Nat.cast_zero, mul_zero, zero_mul]

/-! ## NUM.FIELDS, NUM.MANT and NUM.VALUE (R200 to R202) -/

/-- Settles O51: only the response is written. -/
theorem numFieldsSplitsExponentByte : Obligations.NumFieldsSplitsExponentByte := by
  refine fun e => ⟨rfl, fun s => ?_⟩
  rw [exec, execNumFields, fields_eq]
  rfl

/-- Settles O52: the length alone decides. -/
theorem numMantBuildsBigEndianNumber : Obligations.NumMantBuildsBigEndianNumber := by
  refine fun m => ⟨encode_seq rfl, fun s hle => ?_, fun s hlt => if_pos hlt⟩
  rw [← mant_eq_ofDigits]
  exact if_neg hle.not_gt

/-- Settles O53: the length alone decides. -/
theorem numValueGivesTriple : Obligations.NumValueGivesTriple := by
  refine fun e m => ⟨rfl, fun s hle => ?_, fun s hlt => if_pos hlt⟩
  rw [exec, execNumValue, fields_eq]
  exact if_neg hle.not_gt

/-! ## The data region (R194) -/

@[simp] theorem length_dregion (p : List Byte) : (dregion p).length = p.length - 2 := by
  rw [dregion]
  split
  · rw [List.length_take]
    omega
  · rw [List.length_nil]
    omega

/-- A byte in front of a payload that holds its FCS is in front of the data region. -/
theorem dregion_cons (a : Byte) {p : List Byte} (h : 2 ≤ p.length) : dregion (a :: p) = a :: dregion p := by
  rw [dregion, dregion, if_pos h, if_pos (by rw [List.length_cons]; omega), List.length_cons, Nat.sub_add_comm h,
    List.take_succ_cons]

theorem decodeSingle_congr (cfg : Config) {p q : List Byte} (id : Word) (h : dregion p = dregion q) :
    decodeSingle cfg p id = decodeSingle cfg q id := by
  rw [decodeSingle, decodeSingle, h]

theorem decodeMulti_congr (cfg : Config) {p q : List Byte} (ids : List Word) (h : dregion p = dregion q) :
    decodeMulti cfg p ids = decodeMulti cfg q ids := by
  rw [decodeMulti, decodeMulti, h]

/-- Settles O59: the payloads have one data region. -/
theorem numericDecoderIgnoresFcs : Obligations.NumericDecoderIgnoresFcs := by
  intro d a b a' b' s
  have hregion : dregion (d ++ [a, b]) = dregion (d ++ [a', b']) := by rw [dregion_append, dregion_append]
  refine ⟨fun id => ?_, fun ids => ?_⟩
  · simp only [exec, execNumSingle, numSingle, decodeSingle_congr _ _ hregion]
  · simp only [exec, execNumMulti, numMulti, decodeMulti_congr _ _ hregion]

/-! ## NUM.SINGLE (R195, R203) -/

section
variable {p : List Byte} {id : Word}

/-- A record read is answered with its warning, and only the response is written. -/
theorem exec_numSingle_of_ok {w : Warnings} {r : Record} (s : State) (h : decodeSingle blockConfig p id = .ok (w, r)) :
    exec (.numSingle id p) s = .next { s with resp := some { warn := w, recd := some r } } :=
  (numSingle_eq blockConfig id p s).trans (by rw [h]; rfl)

/-- A failed check is answered with its code alone. -/
theorem exec_numSingle_of_error {c : Code} (s : State) (h : decodeSingle blockConfig p id = .error c) :
    exec (.numSingle id p) s = .next { s with resp := some { code := c } } :=
  (numSingle_eq blockConfig id p s).trans (by rw [h]; rfl)

/-- Without 7 bytes of header in the data region no check is made. -/
theorem decodeSingle_of_length_lt (cfg : Config) (h : (dregion p).length < 7) :
    decodeSingle cfg p id = .error .truncated := by
  rw [decodeSingle]
  split
  next hd =>
    rw [hd] at h
    simp only [List.length_cons] at h
    omega
  next => rfl

/-- The destination and the command are checked before the rest. -/
theorem decodeSingle_of_header_ne (cfg : Config) {a b : Byte} {d : List Byte} (hd : dregion p = a :: b :: d)
    (hlen : 5 ≤ d.length) (hne : a ≠ echoDest ∨ b ≠ echoCmd) : decodeSingle cfg p id = .error .protoMismatch := by
  obtain _ | ⟨d2, _ | ⟨d3, _ | ⟨u, _ | ⟨l, _ | ⟨e, body⟩⟩⟩⟩⟩ := d
  case cons.cons.cons.cons.cons => simp only [decodeSingle, hd, if_pos hne]
  all_goals
    simp only [List.length_cons, List.length_nil] at hlen
    omega

end

/-- Behind the echoed destination and command come the register id, then the mantissa's length. -/
theorem decodeSingle_echo (cfg : Config) (id other : Word) (u l e : Byte) (body : List Byte) (f₀ f₁ : Byte) :
    decodeSingle cfg ([echoDest, echoCmd] ++ be16 id ++ [u, l, e] ++ body ++ [f₀, f₁]) other =
      if id ≠ other then .error .protoMismatch
      else if body.length < l.toNat then .error .truncated
      else .ok (unitWarning cfg u, mkRecord other u l e (body.take l.toNat)) := by
  rw [decodeSingle, dregion_append]
  simp [be16]

/-- A response that echoes another register is refused whatever its record holds. -/
theorem decodeSingle_of_id_ne (cfg : Config) {id other : Word} (u l e : Byte) (body : List Byte) (f₀ f₁ : Byte)
    (h : other ≠ id) :
    decodeSingle cfg ([echoDest, echoCmd] ++ be16 id ++ [u, l, e] ++ body ++ [f₀, f₁]) other = .error .protoMismatch := by
  rw [decodeSingle_echo, if_pos h.symm]

/-- Settles O55: the payload is a response for `id`, and for no other register. -/
theorem numSingleReadsResponse : Obligations.NumSingleReadsResponse := by
  refine ⟨⟨unitTable_one, unitTable_twentyOne, unitTable_forty⟩, fun id other u e m extra f₀ f₁ s hm => ?_⟩
  refine ⟨fun p => rfl, ⟨_, rfl, fun hknown => if_neg ?known, fun habove => if_pos (unitTable_above u habove), ?record⟩,
    fun hother => exec_numSingle_of_error s ?mismatch⟩
  case known =>
    obtain rfl | rfl | rfl := hknown
    · exact unitTable_one ▸ Option.some_ne_none _
    · exact unitTable_twentyOne ▸ Option.some_ne_none _
    · exact unitTable_forty ▸ Option.some_ne_none _
  case record =>
    have hdecode := decodeSingle_response blockConfig id (r := ⟨u, e, m⟩) extra (u16be f₀ f₁) hm
    rw [unitWarning_blockConfig, be16_u16be, WireRecord.bytes, ← List.append_assoc] at hdecode
    exact exec_numSingle_of_ok s hdecode
  case mismatch =>
    rw [List.append_assoc _ m extra]
    exact decodeSingle_of_id_ne _ _ _ _ _ _ _ hother

/-- Settles O56: each check is made only where the ones before it pass. -/
theorem numSingleChecksInOrder : Obligations.NumSingleChecksInOrder := by
  refine ⟨fun id p s hlen => ?header, fun id a b p s hlen hne => ?echo, fun id other u l e m f₀ f₁ s hother => ?id,
    fun id u l e m f₀ f₁ s hlen => ?mantissa⟩ <;> refine exec_numSingle_of_error s ?_
  case header =>
    refine decodeSingle_of_length_lt _ ?_
    rw [length_dregion]
    omega
  case echo =>
    have hd : dregion (a :: b :: p) = a :: b :: dregion p := by
      rw [dregion_cons a (by rw [List.length_cons]; omega), dregion_cons b (by omega)]
    refine decodeSingle_of_header_ne _ hd ?_ hne
    rw [length_dregion]
    omega
  case id => exact decodeSingle_of_id_ne _ _ _ _ _ _ _ hother
  case mantissa => exact (decodeSingle_echo _ id id u l e m f₀ f₁).trans ((if_neg (by simp)).trans (if_pos hlen))

/-! ## The records of a multi-register response (R88, R196) -/

/-- `W_UNIT` if one of the records' units is unknown (R197). -/
def unitsWarning (cfg : Config) (rs : List WireRecord) : Warnings :=
  warnIf (rs.any fun r => (cfg.unitTable r.unit).isNone) wUnit

theorem unitsWarning_cons (cfg : Config) (r : WireRecord) (rs : List WireRecord) :
    unitsWarning cfg (r :: rs) = unitWarning cfg r.unit ||| unitsWarning cfg rs := by
  simp only [unitsWarning, unitWarning, List.any_cons]
  cases (cfg.unitTable r.unit).isNone <;> cases rs.any fun r => (cfg.unitTable r.unit).isNone <;> rfl

theorem unitsWarning_blockConfig (rs : List WireRecord) :
    unitsWarning blockConfig rs = if ∃ r ∈ rs, unitTable r.unit = none then 4 else 0 := by
  simp only [unitsWarning, warnIf, List.any_eq_true, Option.isNone_iff_eq_none]
  rfl

section
variable {cfg : Config} (hcfg : cfg.multiRecIdBytes = 0)
include hcfg

/-- A whole record is read, and the loop goes on behind it. -/
theorem decodeRecords_cons_bytes (id : Word) (ids : List Word) {r : WireRecord} (d : List Byte)
    (hm : r.mantissa.length ≤ 255) :
    decodeRecords cfg (id :: ids) (r.bytes ++ d) =
      (decodeRecords cfg ids d).map fun q => (unitWarning cfg r.unit ||| q.1, r.result id :: q.2) := by
  have hlen : (BitVec.ofNat 8 r.mantissa.length).toNat = r.mantissa.length := by
    rw [BitVec.toNat_ofNat]
    omega
  simp [decodeRecords, hcfg, WireRecord.bytes, hlen, WireRecord.result, mkRecord]

theorem decodeRecords_cons_of_length_lt (id : Word) (ids : List Word) {d : List Byte} (h : d.length < 3) :
    decodeRecords cfg (id :: ids) d = none := by
  obtain _ | ⟨_, _ | ⟨_, _ | ⟨_, d⟩⟩⟩ := d
  case cons.cons.cons =>
    simp only [List.length_cons] at h
    omega
  all_goals simp [decodeRecords, hcfg]

theorem decodeRecords_cons_of_mantissa_lt (id : Word) (ids : List Word) (u e : Byte) {l : Byte} {m : List Byte}
    (h : m.length < l.toNat) : decodeRecords cfg (id :: ids) ([u, l, e] ++ m) = none := by
  simp [decodeRecords, hcfg, h]

/-- At least as many records as ids give one record for each id, and the bytes behind them are not looked at. -/
theorem decodeRecords_flatMap_append {ids : List Word} {rs : List WireRecord} (extra : List Byte)
    (hle : ids.length ≤ rs.length) (hm : ∀ r ∈ rs, r.mantissa.length ≤ 255) :
    decodeRecords cfg ids (rs.flatMap WireRecord.bytes ++ extra) =
      some (unitsWarning cfg (rs.take ids.length), (rs.take ids.length).zipWith WireRecord.result ids) := by
  induction ids generalizing rs with
  | nil => rfl
  | cons id ids ih =>
    cases rs with
    | nil => exact absurd hle (Nat.not_succ_le_zero _)
    | cons r rs =>
      obtain ⟨hr, hrs⟩ := List.forall_mem_cons.mp hm
      rw [List.flatMap_cons, List.append_assoc, decodeRecords_cons_bytes hcfg id ids _ hr,
        ih (Nat.le_of_succ_le_succ hle) hrs, Option.map_some, List.length_cons, List.take_succ_cons, unitsWarning_cons,
        List.zipWith_cons_cons]

/-- Fewer records than ids, followed by what is no record, give nothing. -/
theorem decodeRecords_flatMap_append_eq_none {ids : List Word} {rs : List WireRecord} {tail : List Byte}
    (hlt : rs.length < ids.length) (hm : ∀ r ∈ rs, r.mantissa.length ≤ 255)
    (htail : ∀ id ids, decodeRecords cfg (id :: ids) tail = none) :
    decodeRecords cfg ids (rs.flatMap WireRecord.bytes ++ tail) = none := by
  induction rs generalizing ids with
  | nil =>
    obtain ⟨id, ids, rfl⟩ := List.exists_cons_of_length_pos hlt
    exact htail id ids
  | cons r rs ih =>
    obtain ⟨hr, hrs⟩ := List.forall_mem_cons.mp hm
    obtain ⟨id, ids, rfl⟩ := List.exists_cons_of_length_pos (Nat.zero_lt_of_lt hlt)
    rw [List.flatMap_cons, List.append_assoc, decodeRecords_cons_bytes hcfg id ids _ hr,
      ih (Nat.lt_of_succ_lt_succ hlt) hrs, Option.map_none]

end

/-! ## NUM.MULTI (R196, R204) -/

section
variable {p : List Byte} {ids : List Word}

/-- The records read are answered with their warning, and only the response is written. -/
theorem exec_numMulti_of_ok {w : Warnings} {rs : List Record} (s : State)
    (h : decodeMulti blockConfig p ids = .ok (w, rs)) :
    exec (.numMulti ids p) s = .next { s with resp := some { warn := w, recs := some rs } } :=
  (numMulti_eq blockConfig ids p s).trans (by rw [h]; rfl)

/-- A failed check is answered with its code alone. -/
theorem exec_numMulti_of_error {c : Code} (s : State) (h : decodeMulti blockConfig p ids = .error c) :
    exec (.numMulti ids p) s = .next { s with resp := some { code := c } } :=
  (numMulti_eq blockConfig ids p s).trans (by rw [h]; rfl)

/-- The number of ids is checked before the payload is looked at. -/
theorem decodeMulti_of_invalid_count (cfg : Config) (h : ids.length = 0 ∨ 255 < ids.length) :
    decodeMulti cfg p ids = .error .invalidArg := if_pos h

section
variable (hids : ¬(ids.length = 0 ∨ 255 < ids.length))
include hids

theorem decodeMulti_of_length_lt (cfg : Config) (h : (dregion p).length < 2) :
    decodeMulti cfg p ids = .error .truncated := by
  rw [decodeMulti, if_neg hids]
  split
  next hd =>
    rw [hd] at h
    simp only [List.length_cons] at h
    omega
  next => rfl

theorem decodeMulti_of_header_ne (cfg : Config) {a b : Byte} {d : List Byte} (hd : dregion p = a :: b :: d)
    (hne : a ≠ echoDest ∨ b ≠ echoCmd) : decodeMulti cfg p ids = .error .protoMismatch := by
  simp only [decodeMulti, if_neg hids, hd, if_pos hne]

/-- Behind the echoed header the record loop decides. -/
theorem decodeMulti_of_records_eq_some {cfg : Config} {d : List Byte} {r : Warnings × List Record}
    (hd : dregion p = echoDest :: echoCmd :: d) (h : decodeRecords cfg ids d = some r) :
    decodeMulti cfg p ids = .ok r := by
  rw [decodeMulti, if_neg hids]
  simp [hd, h]

theorem decodeMulti_of_records_eq_none {cfg : Config} {d : List Byte} (hd : dregion p = echoDest :: echoCmd :: d)
    (h : decodeRecords cfg ids d = none) : decodeMulti cfg p ids = .error .truncated := by
  rw [decodeMulti, if_neg hids]
  simp [hd, h]

end

end

/-- Settles O57: the header is echoed, and the record loop finds a record for each id. -/
theorem numMultiReadsRecordsInOrder : Obligations.NumMultiReadsRecordsInOrder := by
  intro ids rs extra f₀ f₁ s hpos hcount hle hm
  refine ⟨fun p => ?encoding, exec_numMulti_of_ok s ?records⟩
  case encoding =>
    rw [List.append_assoc]
    rfl
  case records =>
    rw [← unitsWarning_blockConfig]
    exact decodeMulti_of_records_eq_some (by omega) (dregion_append _ f₀ f₁)
      (decodeRecords_flatMap_append rfl extra hle hm)

/-- Fewer whole records than ids, followed by what is no record, answer `TRUNCATED`. -/
theorem exec_numMulti_of_missing_record {ids : List Word} {rs : List WireRecord} {tail : List Byte} (f₀ f₁ : Byte)
    (s : State) (hlt : rs.length < ids.length) (hcount : ids.length ≤ 255) (hm : ∀ r ∈ rs, r.mantissa.length ≤ 255)
    (htail : ∀ id ids, decodeRecords blockConfig (id :: ids) tail = none) :
    exec (.numMulti ids ([echoDest, echoCmd] ++ rs.flatMap WireRecord.bytes ++ tail ++ [f₀, f₁])) s =
      .next { s with resp := some { code := .truncated } } :=
  exec_numMulti_of_error s (decodeMulti_of_records_eq_none (by omega) (dregion_append _ f₀ f₁)
    (decodeRecords_flatMap_append_eq_none rfl hlt hm htail))

/-- Settles O58: each check is made only where the ones before it pass. -/
theorem numMultiFailsClosed : Obligations.NumMultiFailsClosed := by
  refine ⟨fun ids p s hbad => exec_numMulti_of_error s (decodeMulti_of_invalid_count _ hbad),
    fun ids p s hpos hcount hlen => exec_numMulti_of_error s ?header,
    fun ids a b p s hpos hcount hlen hne => exec_numMulti_of_error s ?echo,
    fun ids rs header f₀ f₁ s hlt hcount hm hshort => ?recordHeader,
    fun ids rs u l e m f₀ f₁ s hlt hcount hm hshort => ?mantissa⟩
  case header =>
    refine decodeMulti_of_length_lt (by omega) _ ?_
    rw [length_dregion]
    omega
  case echo =>
    refine decodeMulti_of_header_ne (by omega) _ (d := dregion p) ?_ hne
    rw [dregion_cons a (by rw [List.length_cons]; omega), dregion_cons b hlen]
  case recordHeader =>
    exact exec_numMulti_of_missing_record f₀ f₁ s hlt hcount hm fun id ids =>
      decodeRecords_cons_of_length_lt rfl id ids hshort
  case mantissa =>
    exact exec_numMulti_of_missing_record f₀ f₁ s hlt hcount hm fun id ids =>
      decodeRecords_cons_of_mantissa_lt rfl id ids u e hshort

end Sys2Proof.Machine
end

section
/-! PROOFS. The control commands (44_control.md R230 to R232). Only CTL.WR writes a register, and both it and CTL.RD answer
`CTRL` through the mask of its reserved bits (10_state.md R23); a value already masked reads as it is. -/

namespace Sys2Proof.Machine

/-- Settles O16: the byte is the whole serialised command, and only the response is written. -/
theorem nopDoesNothing : Obligations.NopDoesNothing :=
  ⟨rfl, fun rest => decodeInvertsEncode .nop rest rfl, fun s => reply_eq _ s⟩

/-- `CTRL` reads what was written to bit 0: the write has cleared what the read would mask (R23, R231). -/
theorem State.readCtrl_writeCtrl (s : State) (v : Byte) : (s.writeCtrl v).readCtrl = v &&& 0x01 := by
  rw [State.writeCtrl_eq, State.readCtrl_setCtrl]
  exact ctrlMask_idem v

/-- Settles O17: `CTRL` is answered as it was written. -/
theorem ctlWrWritesOnlyStrictCrc : Obligations.CtlWrWritesOnlyStrictCrc := by
  intro v
  refine ⟨rfl, fun s => ?_⟩
  calc exec (.ctlWr v) s
      _ = .next ((s.writeCtrl v).setResp { ctrl := some (s.writeCtrl v).readCtrl }) := reply_eq _ _
      _ = .next { s with ctrl := v &&& 0x01, resp := some { ctrl := some (v &&& 0x01) } } := by
        rw [State.readCtrl_writeCtrl]
        rfl

/-- Settles O18: only the response is written, and it carries `CTRL` masked. -/
theorem ctlRdReadsControl : Obligations.CtlRdReadsControl := ⟨rfl, fun s => reply_eq _ s⟩

end Sys2Proof.Machine
end

section
/-! PROOFS. The outcomes of a command (60_exceptions.md R250 to R253, R264). Every command answers, and with a code and warnings
whose rows name it. The codes that leave the state unchanged are `BAD_STATE`, which comes with no write, and those raised by
commands that have no register to write. -/

namespace Sys2Proof.Machine

/-! ## Every command answers (R264, R74) -/

@[simp] theorem Update.apply_cmd (u : Update) (s : State) : (u.apply s).cmd = s.cmd := by cases u <;> rfl

@[simp] theorem Update.apply_rst (u : Update) (s : State) : (u.apply s).rst = s.rst := by cases u <;> rfl

/-- Settles O11: a command's writes are to the registers, and its response is the one put on the port. -/
theorem everyCommandAnswers : Obligations.EveryCommandAnswers := by
  intro i s
  obtain ⟨u, r, ha⟩ := exists_answers i s
  exact ⟨(u.apply s).setResp r, r, ha.exec_self, rfl, u.apply_cmd s, u.apply_rst s⟩

/-! ## The rows that name a command (R250, R252) -/

/-- A conditional warning is no warning but the one it names. -/
theorem warnIf_and_not_self (cause : Bool) (w : Warnings) : warnIf cause w &&& ~~~ w = 0 := by
  cases cause <;> simp [warnIf]

@[simp] theorem mayRaise_ok (i : Instr) : mayRaise .ok i = true := rfl

/-- R250 lists command `i` for the code of response `r`, R252 lists it for every warning of `r`, and `W_UNIT` comes with `OK`. -/
structure Listed (i : Instr) (r : Response) : Prop where
  code : mayRaise r.code i = true
  warn : r.warn &&& ~~~ mayWarn i = 0
  unit : r.warn &&& wUnit ≠ 0 → r.code = .ok

/-- Command `i` in state `s` goes on and puts a listed response on the port. -/
def AnswersListed (i : Instr) (s : State) : Prop :=
  ∃ (s' : State) (r : Response), exec i s = .next (s'.setResp r) ∧ Listed i r

section
variable {i : Instr} {r : Response}

/-- Without a warning only the code has to be listed. -/
theorem Listed.ofNoWarning (hcode : mayRaise r.code i = true) (hwarn : r.warn = 0) : Listed i r where
  code := hcode
  warn := by simp [hwarn]
  unit h := absurd (by simp [hwarn]) h

/-- With `OK` only the warnings have to be listed. -/
theorem Listed.ofOk (hcode : r.code = .ok) (hwarn : r.warn &&& ~~~ mayWarn i = 0) : Listed i r where
  code := by rw [hcode, mayRaise_ok]
  warn := hwarn
  unit _ := hcode

/-- A command that completes frames may report every warning but `W_UNIT`. -/
theorem Listed.ofFrame (hi : mayWarn i = wEsc ||| wCrc) (hcode : mayRaise r.code i = true) (hwarn : r.warn &&& wUnit = 0) :
    Listed i r where
  code := hcode
  warn := by rw [hi]; exact hwarn
  unit h := absurd hwarn h

end

/-! ## The answers of the receiver (R152, R158, R161, R163) -/

theorem completionWarnings_and_wUnit (crcErr escWarn : Bool) : completionWarnings crcErr escWarn &&& wUnit = 0 := by
  revert crcErr escWarn; decide

/-- A completed frame is delivered or fails its integrity check. -/
theorem complete_code (body : List Byte) (strict : Bool) :
    (complete body strict).code = .ok ∨ (complete body strict).code = .integrity := by
  obtain ⟨_, hc, _⟩ | ⟨_, _, hc, _⟩ := complete_cases body strict
  · exact .inl hc
  · exact .inr hc

theorem complete_warn_and_wUnit (body : List Byte) (strict : Bool) : (complete body strict).warn &&& wUnit = 0 := by
  rw [complete_warn]
  exact completionWarnings_and_wUnit _ _

section
variable {max : Option Nat} {strict : Bool} {st : RxState} {buf : List Byte} {b : Byte} {c : Completion}

theorem EndsDecode.code (h : EndsDecode max strict st buf b c) :
    c.code = .ok ∨ c.code = .integrity ∨ c.code = .overflow := by
  cases h with
  | frame => exact (complete_code _ _).imp_right .inl
  | overflow => exact .inr (.inr rfl)

theorem EndsDecode.warn_and_wUnit (h : EndsDecode max strict st buf b c) : c.warn &&& wUnit = 0 := by
  cases h with
  | frame => exact complete_warn_and_wUnit _ _
  | overflow => rfl

/-- RX.BYTE and RX.DECODE are listed for whatever ends a decode. -/
theorem EndsDecode.listed {i : Instr} {r : Response} (h : EndsDecode max strict st buf b c)
    (hi : mayWarn i = wEsc ||| wCrc) (hintegrity : mayRaise .integrity i = true) (hoverflow : mayRaise .overflow i = true)
    (hcode : r.code = c.code) (hwarn : r.warn = c.warn) : Listed i r := by
  refine .ofFrame hi ?_ (hwarn ▸ h.warn_and_wUnit)
  rw [hcode]
  obtain hc | hc | hc := h.code <;> rw [hc]
  · exact mayRaise_ok i
  · exact hintegrity
  · exact hoverflow

end

/-- RX.BYTE refuses, goes on with the frame, or ends the decode (R156). -/
theorem answersListed_rxByte (b : Byte) (s : State) : AnswersListed (.rxByte b) s := by
  by_cases hidle : s.rxs = .idle
  · exact ⟨_, _, rxByte_idle _ b s hidle, .ofNoWarning rfl rfl⟩
  · obtain ⟨st, buf, hb⟩ | ⟨c, hend⟩ := receiveByte_or_endsDecode blockConfig.rxBodyMax s.strict s.rxbuf b hidle
    · exact ⟨_, _, rxByte_of_receiveByte hidle hb, .ofNoWarning rfl rfl⟩
    · obtain ⟨done, h⟩ := rxByte_of_endsDecode hend
      exact ⟨_, _, h, hend.listed rfl rfl rfl rfl rfl⟩

/-- RX.DECODE uses up its operand, or ends the decode at one of its bytes (R163). -/
theorem answersListed_rxDecode (data : List Byte) (s : State) : AnswersListed (.rxDecode data) s := by
  obtain ⟨st, buf, hall⟩ | ⟨before, b, after, st, buf, c, rfl, hbefore, hend⟩ :=
    receiveAll_or_endsDecode (st := .seeking) blockConfig.rxBodyMax s.strict [] data nofun
  · exact ⟨_, _, rxDecode_of_receiveAll s hall, .ofNoWarning rfl rfl⟩
  · exact ⟨_, _, rxDecode_of_endsDecode after hbefore hend, hend.listed rfl rfl rfl rfl rfl⟩

theorem answersListed_decBody (body : List Byte) (s : State) : AnswersListed (.decBody body) s := by
  refine ⟨_, _, exec_decBody body s, .ofFrame rfl ?_ (complete_warn_and_wUnit body s.strict)⟩
  obtain hc | hc := complete_code body s.strict <;> rw [Completion.answered, hc] <;> rfl

/-! ## The answers of the numeric decoder (R195 to R197) -/

theorem unitWarning_and_not_wUnit (cfg : Config) (u : Byte) : unitWarning cfg u &&& ~~~ wUnit = 0 :=
  warnIf_and_not_self _ wUnit

theorem decodeSingle_warn {cfg : Config} {p : List Byte} {id : Word} {w : Warnings} {rec : Record}
    (h : decodeSingle cfg p id = .ok (w, rec)) : w &&& ~~~ wUnit = 0 := by
  unfold decodeSingle at h
  split at h
  · split_ifs at h
    cases h
    exact unitWarning_and_not_wUnit _ _
  · cases h

/-- The warnings of a record loop are those of its records. -/
theorem decodeRecords_warn {cfg : Config} {ids : List Word} {d : List Byte} {w : Warnings} {recs : List Record}
    (h : decodeRecords cfg ids d = some (w, recs)) : w &&& ~~~ wUnit = 0 := by
  induction ids generalizing d w recs with
  | nil => cases h; rfl
  | cons id ids ih =>
    unfold decodeRecords at h
    split at h
    · split_ifs at h
      obtain ⟨⟨w', recs'⟩, hrest, heq⟩ := Option.map_eq_some_iff.mp h
      cases heq
      rw [BitVec.and_or_distrib_right, unitWarning_and_not_wUnit, ih hrest, BitVec.or_self]
    · cases h

theorem decodeMulti_warn {cfg : Config} {p : List Byte} {ids : List Word} {w : Warnings} {recs : List Record}
    (h : decodeMulti cfg p ids = .ok (w, recs)) : w &&& ~~~ wUnit = 0 := by
  unfold decodeMulti at h
  split_ifs at h
  split at h
  · split_ifs at h
    split at h
    next hrecords => cases h; exact decodeRecords_warn hrecords
    next => cases h
  · cases h

theorem answersListed_numSingle (id : Word) (p : List Byte) (s : State) : AnswersListed (.numSingle id p) s := by
  cases h : decodeSingle blockConfig p id with
  | ok wr => exact ⟨s, _, exec_numSingle_of_ok s h, .ofOk rfl (decodeSingle_warn h)⟩
  | error c =>
    refine ⟨s, _, exec_numSingle_of_error s h, .ofNoWarning ?_ rfl⟩
    obtain rfl | rfl := decodeSingle_error h <;> rfl

theorem answersListed_numMulti (ids : List Word) (p : List Byte) (s : State) : AnswersListed (.numMulti ids p) s := by
  cases h : decodeMulti blockConfig p ids with
  | ok wrs => exact ⟨s, _, exec_numMulti_of_ok s h, .ofOk rfl (decodeMulti_warn h)⟩
  | error c =>
    refine ⟨s, _, exec_numMulti_of_error s h, .ofNoWarning ?_ rfl⟩
    obtain rfl | rfl | rfl := decodeMulti_error h <;> rfl

/-! ## Every answer is listed -/

/-- A command whose operand may be too long refuses it or answers (R201, R202). -/
theorem answersListed_of_mantissa {i : Instr} {s : State} {m : List Byte} {r : Response}
    (hi : mayRaise .invalidArg i = true) (hcode : r.code = .ok) (hwarn : r.warn = 0)
    (h : exec i s = if mantissaMax < m.length then raise .invalidArg {} s else reply r s) :
    AnswersListed i s := by
  by_cases hm : mantissaMax < m.length
  · exact ⟨_, _, h.trans (if_pos hm), .ofNoWarning hi rfl⟩
  · exact ⟨_, _, h.trans (if_neg hm), .ofNoWarning (hcode ▸ mayRaise_ok i) hwarn⟩

/-- RX.TIMEOUT and RX.EOS refuse with no decode in progress and else raise their own code (R159, R160). -/
theorem answersListed_of_endDecode {i : Instr} {s : State} {c : Code} {status : Byte}
    (hbad : mayRaise .badState i = true) (hc : mayRaise c i = true)
    (h : exec i s = if s.rxs = .idle then raise .badState {} s else raise c {} (s.endDecode [] status)) :
    AnswersListed i s := by
  by_cases hidle : s.rxs = .idle
  · exact ⟨_, _, h.trans (if_pos hidle), .ofNoWarning hbad rfl⟩
  · exact ⟨_, _, h.trans (if_neg hidle), .ofNoWarning hc rfl⟩

/-- Every command puts a listed response on the port. -/
theorem answersListed (i : Instr) (s : State) : AnswersListed i s := by
  cases i with
  | nop | crcClr | crcFeed | crcRead | crcBlock | crcCalc | crcFcs | crcCheck | encEsc | encStuff | encFrame | rxStart
  | rxRead | numFields | ctlWr | ctlRd => exact ⟨_, _, rfl, .ofNoWarning rfl rfl⟩
  | rxByte b => exact answersListed_rxByte b s
  | rxTimeout => exact answersListed_of_endDecode rfl rfl rfl
  | rxEos => exact answersListed_of_endDecode rfl rfl rfl
  | rxDecode data => exact answersListed_rxDecode data s
  | decUnstuff data => exact ⟨_, _, rfl, .ofOk rfl (warnIf_and_not_self _ wEsc)⟩
  | decBody body => exact answersListed_decBody body s
  | numMant m => exact answersListed_of_mantissa rfl rfl rfl rfl
  | numValue e m => exact answersListed_of_mantissa rfl rfl rfl rfl
  | numSingle id p => exact answersListed_numSingle id p s
  | numMulti ids p => exact answersListed_numMulti ids p s

/-- The response a command leaves on the port is a listed one. -/
theorem listed_of_exec {i : Instr} {s t : State} {r : Response} (h : exec i s = .next t) (hr : t.resp = some r) :
    Listed i r := by
  obtain ⟨s', r', hexec, hlisted⟩ := answersListed i s
  rw [hexec] at h
  cases h
  cases hr
  exact hlisted

/-- Settles O14: the answer of each command, and the two encodings as they are written. -/
theorem outcomesComeFromTheirCommands : Obligations.OutcomesComeFromTheirCommands := by
  refine ⟨fun i s t r h hr => ?listed, by decide, rfl, rfl, rfl⟩
  obtain ⟨hcode, hwarn, hunit⟩ := listed_of_exec h hr
  exact ⟨hcode, hwarn, hunit⟩

/-! ## Rejected commands (R253) -/

/-- The commands R250 lists for these three codes have no W entry in R33. -/
theorem writesOf_eq_nil_of_mayRaise {c : Code} {i : Instr} (h : mayRaise c i = true)
    (hc : c = .protoMismatch ∨ c = .truncated ∨ c = .invalidArg) : writesOf i = [] := by
  cases i with
  | numMant | numValue | numSingle | numMulti => rfl
  | _ => obtain rfl | rfl | rfl := hc <;> contradiction

/-- Settles O13: `BAD_STATE` comes with no write, and the other three codes from commands that write nothing. -/
theorem rejectedCommandsChangeNothing : Obligations.RejectedCommandsChangeNothing := by
  intro i s t r h hr hcode
  obtain ⟨u, r', ha, rfl⟩ := exec_inv h
  obtain rfl : r' = r := by simpa using hr
  have hu : u = .unchanged := by
    obtain hbad | hrejected := hcode
    · exact ha.badState hbad
    · have hw : writesOf i = [] := writesOf_eq_nil_of_mayRaise (listed_of_exec h hr).code hrejected
      exact Update.writes_eq_nil_iff.mp (List.subset_nil.mp (hw ▸ ha.writes))
  rw [hu]
  rfl

end Sys2Proof.Machine
end

section
/-! PROOFS. Reset (70_reset_and_hazards.md R280, R281). -/

namespace Sys2Proof.Machine

/-- With the reset input high the step is the reset, whatever stands on the command port (R281). -/
theorem step_of_rst {s : State} (hrst : s.rst = true) : step s = .next (State.reset.setCmd s.cmd) := by
  simp [step, hrst]

/-- Settles O7: the step is the reset, and only the command port comes from the state before it. -/
theorem resetInputRestoresResetValues : Obligations.ResetInputRestoresResetValues := by
  intro s hrst
  rw [step_of_rst hrst]
  rfl

/-- After reset there is no result, which is a legal status with no payload (R26, R27). -/
theorem StatusInvariants.reset : StatusInvariants State.reset where
  legal := by decide
  delivered _ := State.reset_rxp

/-- Settles O8: the six values of R280, R32's invariants and those of the status. -/
theorem resetStateIsAsListed : Obligations.ResetStateIsAsListed :=
  ⟨State.reset_crc, State.reset_ctrl, State.reset_rxs, State.reset_rxbuf, State.reset_rxp, State.reset_rxst,
    Invariants.reset _, StatusInvariants.reset⟩

end Sys2Proof.Machine
end
